-- ==== Sys2Proof/Word.lean ====
section
/-! DEFINITION. The words of the part: bytes, web positions, readings of TIME, addresses, channel numbers, and a
four-fold record with one value for each channel. -/

namespace Sys2Proof

/-- One byte (the unit of every format of chapter 11). -/
abbrev Byte := BitVec 8

/-- A web position: a count of ticks modulo 2^40 (R10). -/
abbrev Pos := BitVec 40

/-- A reading of TIME: microseconds modulo 2^32 (R11). -/
abbrev Time := BitVec 32

/-- A 64-bit byte address of host memory. -/
abbrev Addr := BitVec 64

/-- A channel number 0 to 3 ("Channels and Profiles" of the introduction). -/
inductive Ch where
  | ch0 | ch1 | ch2 | ch3
deriving DecidableEq, Repr

/-- The channel's number, as the formats of chapter 11 write it. -/
def Ch.num : Ch → Nat
  | .ch0 => 0
  | .ch1 => 1
  | .ch2 => 2
  | .ch3 => 3

/-- The four channels in order of number. -/
def Ch.all : List Ch := [.ch0, .ch1, .ch2, .ch3]

/-- One value for each of the four channels. -/
structure Quad (α : Type) where
  /-- channel 0's -/
  q0 : α
  /-- channel 1's -/
  q1 : α
  /-- channel 2's -/
  q2 : α
  /-- channel 3's -/
  q3 : α
deriving DecidableEq, Repr

/-- Channel `c`'s value. -/
def Quad.get {α : Type} (q : Quad α) : Ch → α
  | .ch0 => q.q0
  | .ch1 => q.q1
  | .ch2 => q.q2
  | .ch3 => q.q3

/-- `q` with channel `c`'s value replaced by `v`. -/
def Quad.set {α : Type} (q : Quad α) (c : Ch) (v : α) : Quad α :=
  match c with
  | .ch0 => { q with q0 := v }
  | .ch1 => { q with q1 := v }
  | .ch2 => { q with q2 := v }
  | .ch3 => { q with q3 := v }

/-- The four-fold record with the value `f c` for each channel `c`. -/
def Quad.of {α : Type} (f : Ch → α) : Quad α := ⟨f .ch0, f .ch1, f .ch2, f .ch3⟩

/-- The four-fold record with the same value for every channel. -/
def Quad.all {α : Type} (v : α) : Quad α := ⟨v, v, v, v⟩

end Sys2Proof
end

