-- ==== Sys2Proof/Syntax.lean ====
section
/-! DEFINITION. The commands of the part: one constructor for each row of spec/opcode_table.json. The table gives no
operands; an operand here is a datum that the spec says comes from outside together with the event. -/

namespace Sys2Proof

/-- What a request on either link is (R123, R125, R130). A configuration request comes from the host only. -/
inductive ReqKind where
  | memWrite | memRead | completion | message | config
deriving DecidableEq, Repr

/-- One request of a link: its kind, address, length and data (R125). -/
structure Request where
  /-- kind of request -/
  kind : ReqKind
  /-- byte address -/
  addr : Addr
  /-- length in bytes -/
  len : Nat
  /-- the data it carries; of a memory write all `len` bytes -/
  data : List Byte
deriving DecidableEq, Repr

/-- The commands, in the order of the table. -/
inductive Instr where
  /-- POWER_ON (R14) -/
  | powerOn
  /-- RESET_PIN (R14) -/
  | resetPin
  /-- RESET_END (R165) -/
  | resetEnd
  /-- ENCODER_TRANSITION (R1): the observed levels of ENCA and ENCB, and the levels of RDY0 to RDY3 as they stand then -/
  | encoderTransition (encA encB : Bool) (rdy : Quad Bool)
  /-- MARK_CHANGE (R16): the new level of MARK, true for high -/
  | markChange (level : Bool)
  /-- CANDIDATE_QUALIFIES (R19) -/
  | candidateQualifies
  /-- WINDOW_RUNS_OUT (R23) -/
  | windowRunsOut
  /-- FIRE (R36) of a channel -/
  | fire (c : Ch)
  /-- TRIGGER_PULSE_END (R40) of a channel -/
  | triggerPulseEnd (c : Ch)
  /-- LATENCY_EXPIRY (R45) of a channel -/
  | latencyExpiry (c : Ch)
  /-- STALL (R62) of a channel -/
  | stall (c : Ch)
  /-- HOLD_CHANGE (R101): true for HOLD active -/
  | holdChange (active : Bool)
  /-- GRABBER_REQUEST_ACCEPT (R124): the request the grabber link delivers -/
  | grabberRequestAccept (req : Request)
  /-- PIECE_ADMISSION (R127) -/
  | pieceAdmission
  /-- PASS_THROUGH_ADMISSION (R129) -/
  | passThroughAdmission
  /-- FENCE (R69) of a channel -/
  | fence (c : Ch)
  /-- FRAME_ITEM_ADMISSION (R126) -/
  | frameItemAdmission
  /-- REPORT_GROUP_FORM (R144) -/
  | reportGroupForm
  /-- REPORT_RECORD_ADMISSION (R145) -/
  | reportRecordAdmission
  /-- MESSAGE_INTERRUPT (R146) -/
  | messageInterrupt
  /-- STATUS_EVENT (R147) -/
  | statusEvent
  /-- EGRESS_SEND (R125) -/
  | egressSend
  /-- DOWNSTREAM_REQUEST (R130): the request the host link delivers -/
  | downstreamRequest (req : Request)
  /-- DOWNSTREAM_SEND (R130) -/
  | downstreamSend
  /-- HOST_LINK_FIRST_UP (R133) -/
  | hostLinkFirstUp
  /-- HOST_LINK_RESET (R134) -/
  | hostLinkReset
  /-- HOST_LINK_RETURN (R136) -/
  | hostLinkReturn
  /-- GRABBER_LINK_TRAINED (R128) -/
  | grabberLinkTrained
  /-- GRABBER_LINK_LOSS (R137) -/
  | grabberLinkLoss
  /-- SPEED_INTERVAL_EXPIRY (R154) -/
  | speedIntervalExpiry
  /-- SPEED_BLOCK_END (R154) -/
  | speedBlockEnd
  /-- CLEAR_PULSE (R159): the level at which CLEAR is sampled, true for active -/
  | clearPulse (active : Bool)
  /-- PSEL_CHANGE (R168): the new PSEL value, bit 0 PSEL0 and bit 1 PSEL1 -/
  | pselChange (value : BitVec 2)
  /-- PSEL_DEBOUNCE_EXPIRY (R168) -/
  | pselDebounceExpiry
  /-- DRAIN_END (R170) -/
  | drainEnd
  /-- SREQ_ASSERT (R171) -/
  | sreqAssert
  /-- SREQ_RELEASE (R171) -/
  | sreqRelease
  /-- STORE_GRANT (R171) -/
  | storeGrant
  /-- LOADING_START (R172) -/
  | loadingStart
  /-- LOAD_READ_END (R164): the bytes the store answered for the store header and for the target's record -/
  | loadReadEnd (header record : List Byte)
deriving DecidableEq, Repr

end Sys2Proof
end

