-- ==== Sys2Proof/Decode.lean ====
section
/-! DEFINITION. Reading a command from a word of spec/opcode_table.json. No row of the table gives bits ("fields" is
empty and no row has a width), so no word spells a command (log 30). -/

namespace Sys2Proof

/-- The command that a word of `nbits` bits spells by the table's bits: none, for the table gives no row any bits. -/
def decodeTableWord (_nbits _w : Nat) : Option Instr := none

end Sys2Proof
end

