-- ==== Sys2Proof/Config.lean ====
section
/-! DEFINITION. What the part fixes for every machine (capacities, saturation limits, the debounce time) and the one
value the spec leaves open, a constant without a body. -/

namespace Sys2Proof.Config

/-- The level of MARK (true = high) that reads ACTIVE in the MARK reference while NO profile is active: R16 reads
MARK "through MARK_POL of the active profile", R17 has the reference set from samples in LOADING_INITIAL and FALLBACK
too, and the spec names no polarity there. A free value (log 7): nothing is known of it. -/
opaque markActiveLevelWithoutProfile : Bool

/-- Records a PTQ can hold (R43). -/
def ptqCapacity : Nat := 32
/-- Entries the egress queue can hold (R125). -/
def egressCapacity : Nat := 64
/-- Requests the downstream queue can hold (R130). -/
def downstreamCapacity : Nat := 32
/-- Reports the report queue can hold (R141). -/
def reportCapacity : Nat := 16
/-- Lengths the length history can hold (R27). -/
def historyCapacity : Nat := 16
/-- The PSEL debounce interval in microseconds (R168). -/
def debounceTime : Nat := 10000
/-- The 4 KiB boundary (introduction, "Memory"). -/
def pageBytes : Nat := 4096
/-- Length of the store header (R163). -/
def storeHeaderBytes : Nat := 64
/-- Length of a profile record (R163). -/
def profileRecordBytes : Nat := 256
/-- Greatest backlash depth (R5). -/
def maxDepth : Nat := 2 ^ 39 - 1
/-- Where the 16-bit counts saturate (R8, R19, R21, R107, R142). -/
def sat16 : Nat := 65535
/-- Where the 24-bit counts saturate (R6, R153). -/
def sat24 : Nat := 16777215
/-- Where the line totals saturate (R73, R91). -/
def sat32 : Nat := 4294967295

end Sys2Proof.Config
end

