-- ==== Sys2Proof/Machine/State.lean ====
section
/-! DEFINITION. The state of the part, block by block as Table 0-2 lists them, as plain data; the reasons a step can
stop; and the state right after a power-on reset. -/

namespace Sys2Proof.Machine

/-- Why a step could stop with a fault. There is none: every outcome the manual describes is an effect on the state
(INVENTORY.md, "Faults"). -/
inductive Fault where
deriving DecidableEq, Repr

/-- Why a step refuses a command. -/
inductive Refusal where
  /-- Raised by a dispatch arm whose command has no meaning yet. Safe: no claim about the command can be proved. -/
  | notModelled (mnemonic : String)
  /-- Raised by GRABBER_REQUEST_ACCEPT for a request that R123 says the grabber never sends (log 20). Safe: the
  machine stops where the manual gives no effect. -/
  | malformedGrabberRequest
deriving DecidableEq, Repr

/-! ## Profile parameters (chapters 1 to 9, decoded by Tables 11-3 and 11-4) -/

/-- FORMAT_c (Table 5-2). -/
inductive Format where
  | pass | byteExchange | narrow
deriving DecidableEq, Repr

/-- The parameters of one channel (Table 11-4). -/
structure ChanProfile where
  /-- CH_ENABLE_c -/
  enable : Bool
  /-- SRC_BASE_c -/
  srcBase : Nat
  /-- SRC_PITCH_c -/
  srcPitch : Nat
  /-- SRC_LINES_c -/
  srcLines : Nat
  /-- SRC_LINE_BYTES_c -/
  lineBytes : Nat
  /-- S_IN_c, 1 or 2 -/
  sIn : Nat
  /-- MIRROR_c -/
  mirror : Bool
  /-- FORMAT_c -/
  format : Format
  /-- SHIFT_c -/
  shift : Nat
  /-- D_c, the stagger distance -/
  stagger : Nat
  /-- TRIM_LO_c -/
  trimLo : Nat
  /-- TRIM_HI_c -/
  trimHi : Nat
  /-- COL_BASE_c -/
  colBase : Nat
  /-- TRG_PHASE_c -/
  trgPhase : Nat
deriving DecidableEq, Repr

/-- The priority of each report kind (Table 8-2). -/
structure Priorities where
  /-- PRI_START -/
  start : Nat
  /-- PRI_PROFILE -/
  profile : Nat
  /-- PRI_LOCK -/
  lock : Nat
  /-- PRI_CHANNEL -/
  channel : Nat
  /-- PRI_ALERT -/
  alert : Nat
  /-- PRI_FRAME_DONE -/
  frameDone : Nat
  /-- PRI_FRAME_SKIPPED -/
  frameSkipped : Nat
  /-- PRI_LINE_FAULT -/
  lineFault : Nat
  /-- PRI_STATUS -/
  status : Nat
deriving DecidableEq, Repr

/-- The parameters of a profile (Table 11-3). -/
structure Profile where
  /-- REVERSE_LIMIT -/
  reverseLimit : Nat
  /-- MARK_MIN -/
  markMin : Nat
  /-- L_EXP -/
  lExp : Nat
  /-- L_TOL -/
  lTol : Nat
  /-- MISS_MAX -/
  missMax : Nat
  /-- ENC_SENSE = INVERTED -/
  encInverted : Bool
  /-- MARK_POL = ACTIVE_LOW -/
  markActiveLow : Bool
  /-- SLOW_REPEAT = ON -/
  slowRepeat : Bool
  /-- AUTO_RESYNC = ON -/
  autoResync : Bool
  /-- SLOW_SPEED = ON -/
  slowSpeed : Bool
  /-- ALERT_LATCH = ON -/
  alertLatch : Bool
  /-- ALERT_POL = ACTIVE_HIGH -/
  alertActiveHigh : Bool
  /-- L_LO -/
  lLo : Nat
  /-- L_HI -/
  lHi : Nat
  /-- REPEAT_AVG, the number of lengths -/
  repeatAvg : Nat
  /-- SPD_AVG, the number of samples -/
  spdAvg : Nat
  /-- FENCE_COUNT -/
  fenceCount : Nat
  /-- LP, the line pitch -/
  lp : Nat
  /-- LAT_SCALE -/
  latScale : Nat
  /-- LAT_CMP -/
  latCmp : Nat
  /-- TRG_WIDTH -/
  trgWidth : Nat
  /-- ROWS -/
  rows : Nat
  /-- SLOTS -/
  slots : Nat
  /-- REPORT_ENTRIES, the number of records -/
  reportEntries : Nat
  /-- REPORT_THRESHOLD -/
  reportThreshold : Nat
  /-- IRQ_LEVEL -/
  irqLevel : Nat
  /-- ROW_BYTES -/
  rowBytes : Nat
  /-- STATUS_PERIOD -/
  statusPeriod : Nat
  /-- SLOT_BASE -/
  slotBase : Nat
  /-- REPORT_BASE -/
  reportBase : Nat
  /-- MSG_ADDR -/
  msgAddr : Nat
  /-- SLOT_STRIDE -/
  slotStride : Nat
  /-- MSG_DATA -/
  msgData : Nat
  /-- SPEED_INTERVAL -/
  speedInterval : Nat
  /-- SPD_HI -/
  spdHi : Nat
  /-- SPD_LO -/
  spdLo : Nat
  /-- ALERT_MASK, one bit per flag number of Table 11-1 -/
  alertMask : BitVec 9
  /-- the PRI_ parameters -/
  pri : Priorities
  /-- the channel blocks -/
  ch : Quad ChanProfile
deriving DecidableEq, Repr

/-! ## Input lines -/

/-- The levels of the input lines as last seen (Table 11-9). HOLD is kept as the FRT's hold state (R101). -/
structure Pins where
  /-- ENCA, true for high -/
  encA : Bool
  /-- ENCB, true for high -/
  encB : Bool
  /-- MARK, true for high -/
  mark : Bool
  /-- RDY0 to RDY3, true for active -/
  rdy : Quad Bool
  /-- PSEL1 and PSEL0 as a number (R168) -/
  psel : BitVec 2
  /-- CLEAR, true for active -/
  clear : Bool
  /-- SREQ, true for active -/
  sreq : Bool
deriving DecidableEq, Repr

/-! ## Web Position Unit (Table 1-1) -/

/-- WPU state. -/
structure Wpu where
  /-- the encoder reference, (ENCA, ENCB), or NONE -/
  encRef : Option (Bool × Bool)
  /-- WPOS -/
  wpos : Pos
  /-- WMAX -/
  wmax : Pos
  /-- backlash depth -/
  depth : Nat
  /-- deep-reversal delivered is SET -/
  deepDelivered : Bool
  /-- deepest backlash -/
  deepest : Nat
  /-- encoder error count -/
  encErrors : Nat
  /-- TIME -/
  time : Time
deriving DecidableEq, Repr

/-! ## Mark Tracker (Table 2-1) -/

/-- The lock state. -/
inductive LockState where
  | search | locked | coasting
deriving DecidableEq, Repr

/-- Why lock was lost (R25, R26). -/
inductive LossCause where
  | window | reversal
deriving DecidableEq, Repr

/-- A mark: its position and whether it was synthesized (R20, R22, R24). -/
structure Mark where
  /-- position -/
  pos : Pos
  /-- the synthesized flag -/
  synth : Bool
deriving DecidableEq, Repr

/-- The mark being qualified (R18). It keeps the MARK_MIN of its start. -/
structure Candidate where
  /-- start position c -/
  start : Pos
  /-- advance count -/
  count : Nat
  /-- in-window flag -/
  inWindow : Bool
  /-- MARK_MIN of the profile active at its start -/
  markMin : Nat
deriving DecidableEq, Repr

/-- MKT state. -/
structure Mkt where
  /-- lock state -/
  lock : LockState
  /-- MARK reference is ACTIVE -/
  markRef : Bool
  /-- the candidate, if any -/
  cand : Option Candidate
  /-- newest mark, if any -/
  newest : Option Mark
  /-- expiry deferred is SET -/
  deferred : Bool
  /-- length history, newest first -/
  history : List Nat
  /-- repeat average L_avg -/
  lAvg : Nat
  /-- coasting count -/
  coasting : Nat
  /-- glitch count -/
  glitch : Nat
  /-- inhibit count -/
  inhibit : Nat
  /-- the model's own: the advance in hand carries a mark edge whose step 4 of R17 waits for steps 2 and 3 (log 2) -/
  edgePending : Bool
deriving DecidableEq, Repr

/-! ## Trigger Generator (Table 3-1) -/

/-- A trigger record (Table 3-4). -/
structure TrigRec where
  /-- trigger sequence number -/
  seq : BitVec 32
  /-- WMAX at the fire -/
  p : Pos
  /-- the line's web point -/
  w : Pos
deriving DecidableEq, Repr

/-- A trigger pulse in progress: the reading of its start and the TRG_WIDTH it was started with (R39, R40). -/
structure Pulse where
  /-- TIME at the emission -/
  t0 : Time
  /-- TRG_WIDTH of the emission -/
  width : Nat
deriving DecidableEq, Repr

/-- TGN state of one channel. -/
structure Tgn where
  /-- countdown; no value while it does not run (R50, R51); 0 while the fire it has reached is still to be judged -/
  countdown : Option Nat
  /-- the pulse while the pulse state is ACTIVE -/
  pulse : Option Pulse
  /-- trigger sequence counter -/
  seq : BitVec 32
  /-- PTQ, oldest record first -/
  ptq : List TrigRec
deriving DecidableEq, Repr

/-! ## Line Binder (Tables 4-1, 4-3) -/

/-- The channel state. -/
inductive ChanState where
  | disabled | resync | running | fenced
deriving DecidableEq, Repr

/-- The LINE_FAULT kinds (R140). The first five are also the refusal kinds of a disposition. -/
inductive FaultKind where
  | uncaptured | overlong | unmatched | fenced | loading | short | straggler | bypassed
deriving DecidableEq, Repr

/-- The disposition of a line (Table 4-3). -/
inductive Disposition where
  /-- PLACED: frame serial, slot and row -/
  | placed (serial : BitVec 32) (slot row : Nat)
  /-- REFUSED, of the kind named -/
  | refused (kind : FaultKind)
deriving DecidableEq, Repr

/-- A FILLING line context (Table 4-3). -/
structure Line where
  /-- ring index k0 -/
  k0 : Nat
  /-- WMAX at the admission of the line's first piece -/
  start : Pos
  /-- the record bound to the line, if any -/
  record : Option TrigRec
  /-- disposition -/
  disp : Disposition
  /-- fill mark -/
  fill : Nat
  /-- count of accepted bytes -/
  count : Nat
deriving DecidableEq, Repr

/-- The line totals of a channel (R73) and its misaligned-byte total (R91). -/
structure Totals where
  /-- unmatched total -/
  unmatched : Nat
  /-- straggler total -/
  straggler : Nat
  /-- uncaptured total -/
  uncaptured : Nat
  /-- fenced total -/
  fenced : Nat
  /-- loading total -/
  loading : Nat
  /-- short total -/
  short : Nat
  /-- misaligned-byte total -/
  misaligned : Nat
deriving DecidableEq, Repr

/-- LNB state of one channel, with the counts the PLU's work feeds (R91). -/
structure Lnb where
  /-- channel state -/
  state : ChanState
  /-- line context: EMPTY, or the FILLING line -/
  ctx : Option Line
  /-- last ring index kL, or NONE -/
  kL : Option Nat
  /-- ring offset RING_OFS -/
  ringOfs : Nat
  /-- unmatched count -/
  unmatched : Nat
  /-- totals since reset -/
  totals : Totals
  /-- bytes-out count -/
  bytesOut : BitVec 40
  /-- the wrapped flag of the bytes-out count -/
  wrapped : Bool
deriving DecidableEq, Repr

/-! ## Frame Table (Tables 6-1, 6-3) -/

/-- How an end mark arose (Table 6-3). -/
inductive EndKind where
  | real | synthesized | lockLossWindow | lockLossReversal
deriving DecidableEq, Repr

/-- The line counts of one channel in one entry. -/
structure Counts where
  /-- placed -/
  placed : Nat
  /-- short -/
  short : Nat
  /-- overlong -/
  overlong : Nat
  /-- expired: expiries, emptyings and bypasses -/
  expired : Nat
  /-- skipped -/
  skipped : Nat
deriving DecidableEq, Repr

/-- One upstream write: its address and data. -/
structure Write where
  /-- first byte's address -/
  addr : Addr
  /-- the bytes, lowest address first -/
  data : List Byte
deriving DecidableEq, Repr

/-- What a frame write item is (R116). -/
inductive ItemKind where
  | header | trailer
deriving DecidableEq, Repr

/-- An item of the frame write list (R116). -/
structure FrameItem where
  /-- HEADER or TRAILER -/
  kind : ItemKind
  /-- slot number of its entry -/
  slot : Nat
  /-- serial of its entry -/
  serial : BitVec 32
  /-- its posted writes, in ascending address order -/
  writes : List Write
deriving DecidableEq, Repr

/-- A frame entry (Table 6-3). It is OPEN while its end mark is absent. -/
structure FrameEntry where
  /-- frame serial of its start mark -/
  serial : BitVec 32
  /-- slot -/
  slot : Nat
  /-- start mark m_s -/
  ms : Pos
  /-- start kind is SYNTHESIZED -/
  startSynth : Bool
  /-- end mark m_e and end kind, once BOUNDED -/
  fin : Option (Pos × EndKind)
  /-- link-reset flag -/
  linkReset : Bool
  /-- done flags -/
  done : Quad Bool
  /-- counts -/
  counts : Quad Counts
  /-- the header item as fixed at the opening, which a host-link reset repeats (R135) -/
  header : FrameItem
deriving DecidableEq, Repr

/-- FRT state. -/
structure Frt where
  /-- frame entries, oldest first -/
  entries : List FrameEntry
  /-- slot pointer -/
  slotPtr : Nat
  /-- frame serial -/
  serial : BitVec 32
  /-- hold state is HELD -/
  held : Bool
  /-- frame write list, oldest first -/
  writeList : List FrameItem
deriving DecidableEq, Repr

/-! ## Egress Unit (Table 7-1) -/

/-- The origin of an egress entry (R125). -/
inductive Origin where
  | grabber | frame | report
deriving DecidableEq, Repr

/-- An entry of the egress queue (R125). -/
structure Egress where
  /-- origin -/
  origin : Origin
  /-- kind of request -/
  kind : ReqKind
  /-- address -/
  addr : Addr
  /-- length -/
  len : Nat
  /-- data -/
  data : List Byte
deriving DecidableEq, Repr

/-- The request in progress (R124): the request as accepted, whether it was classified as steering (R123), and the
address and data of the bytes not admitted yet. -/
structure Ingress where
  /-- the request, held whole -/
  req : Request
  /-- classified as steering at acceptance -/
  steers : Bool
  /-- address of the first unadmitted byte -/
  addr : Nat
  /-- the unadmitted bytes -/
  data : List Byte
deriving DecidableEq, Repr

/-- EGU state. -/
structure Egu where
  /-- host link state is UP -/
  hostUp : Bool
  /-- the model's own: the host link has been UP since the reset (R133, log 16) -/
  hostRisen : Bool
  /-- grabber link state is RUNNING -/
  grabberRunning : Bool
  /-- grabber link trained -/
  trained : Bool
  /-- egress queue, oldest first -/
  egress : List Egress
  /-- ingress: IDLE, or the request IN_PROGRESS -/
  ingress : Option Ingress
  /-- grabber flow control is OPEN -/
  flowOpen : Bool
  /-- downstream queue, oldest first -/
  downstream : List Request
deriving DecidableEq, Repr

/-! ## Speed and Alert Unit (Table 9-1) -/

/-- The nine alert flags (Table 9-3). -/
inductive AlertFlag where
  | speedHigh | speedLow | repeatLong | repeatShort | channelFenced | profileFallback
  | lockLost | encoder | reportsDropped
deriving DecidableEq, Repr

/-- The six conditions (Table 9-3). -/
inductive Cond where
  | speedHigh | speedLow | repeatLong | repeatShort | channelFenced | profileFallback
deriving DecidableEq, Repr

/-- The held conditions: true for HOLDS. -/
structure Conditions where
  /-- SPEED_HIGH -/
  speedHigh : Bool
  /-- SPEED_LOW -/
  speedLow : Bool
  /-- REPEAT_LONG -/
  repeatLong : Bool
  /-- REPEAT_SHORT -/
  repeatShort : Bool
  /-- CHANNEL_FENCED -/
  channelFenced : Bool
  /-- PROFILE_FALLBACK -/
  profileFallback : Bool
deriving DecidableEq, Repr

/-- The alert flags: true for SET. -/
structure FlagSet where
  /-- SPEED_HIGH -/
  speedHigh : Bool
  /-- SPEED_LOW -/
  speedLow : Bool
  /-- REPEAT_LONG -/
  repeatLong : Bool
  /-- REPEAT_SHORT -/
  repeatShort : Bool
  /-- CHANNEL_FENCED -/
  channelFenced : Bool
  /-- PROFILE_FALLBACK -/
  profileFallback : Bool
  /-- LOCK_LOST -/
  lockLost : Bool
  /-- ENCODER -/
  encoder : Bool
  /-- REPORTS_DROPPED -/
  reportsDropped : Bool
deriving DecidableEq, Repr

/-- SAU state. -/
structure Sau where
  /-- speed interval: STOPPED, or RUNNING since t0 -/
  speedT0 : Option Time
  /-- raw sample -/
  raw : Nat
  /-- block sum -/
  blockSum : Nat
  /-- block count -/
  blockCount : Nat
  /-- speed average -/
  speedAvg : Nat
  /-- speed conditions and received conditions -/
  cond : Conditions
  /-- alert flags -/
  flags : FlagSet
  /-- CLEAR reference is ACTIVE -/
  clearRef : Bool
  /-- ALERT is active -/
  alert : Bool
deriving DecidableEq, Repr

/-! ## Profile Loader (Table 10-1) -/

/-- The loader state. -/
inductive LoaderState where
  | loadingInitial | running | draining | awaitingStore | loading | fallback
deriving DecidableEq, Repr

/-- Why a load is refused (Table 10-2). -/
inductive Reason where
  | checksum | version | range | apertureOverlap | regionOverlap | columnSpan | columnOverlap | trim | slotSize
  | stagger | format | ring
deriving DecidableEq, Repr

/-- The start cause (R165). -/
inductive StartCause where
  | powerOn | resetPin
deriving DecidableEq, Repr

/-- Who may drive the store port (R171). -/
inductive StoreOwner where
  | loader | programmer | free
deriving DecidableEq, Repr

/-- The active profile: its number and its parameters. -/
structure ActiveProfile where
  /-- profile number -/
  number : BitVec 2
  /-- parameters -/
  prof : Profile
deriving DecidableEq, Repr

/-- The staging copy: the bytes of the load in progress (R163). -/
structure Staging where
  /-- the store header -/
  header : List Byte
  /-- the profile record -/
  record : List Byte
deriving DecidableEq, Repr

/-- A transaction of the store port: the command and address bytes driven on SDO, and how many data bytes are read
(R180). -/
structure PortRead where
  /-- bytes driven: the read command 03H and the two address bytes, most significant first -/
  driven : List Byte
  /-- data bytes read, in ascending address -/
  count : Nat
deriving DecidableEq, Repr

/-- What the part does to the store port's outputs (R180). -/
inductive PortDrive where
  /-- SCS, SCK and SDO high-impedance; the riser's pull-up holds SCS inactive -/
  | highImpedance
  /-- driven with SCS inactive and SCK idling low -/
  | idle
  /-- SCS active, the transaction clocked -/
  | transaction (t : PortRead)
deriving DecidableEq, Repr

/-- PFL state. -/
structure Pfl where
  /-- loader state -/
  loader : LoaderState
  /-- active profile, or NONE -/
  active : Option ActiveProfile
  /-- target, or NONE -/
  target : Option (BitVec 2)
  /-- staging copy, or empty -/
  staging : Option Staging
  /-- PSEL stable value -/
  pselStable : BitVec 2
  /-- PSEL debounce: IDLE, or RUNNING since t0 -/
  debounce : Option Time
  /-- refused value, or NONE -/
  refused : Option (BitVec 2)
  /-- start cause of the start-up record -/
  startCause : StartCause
  /-- first refusal reason of the start-up record, or none -/
  firstReason : Option Reason
  /-- store owner -/
  owner : StoreOwner
  /-- SGNT is active -/
  sgnt : Bool
  /-- the store port's transaction in progress, SCS active; none with SCS inactive (R180) -/
  transaction : Option PortRead
deriving DecidableEq, Repr

/-! ## Report Unit (Table 8-1) -/

/-- A report event's kind with its payload (Table 8-3). A STATUS report's figures are read when its group is formed
(R148), so it carries none. -/
inductive ReportEvent where
  /-- START: start cause, profile loaded, first refusal reason -/
  | start (cause : StartCause) (prof : BitVec 2) (reason : Option Reason)
  /-- PROFILE: switched (or refused), profile requested, profile active, refusal reason -/
  | profile (switched : Bool) (requested active : BitVec 2) (reason : Option Reason)
  /-- LOCK: new and old state, synthesized flag, cause, position, repeat average -/
  | lock (new old : LockState) (synth : Bool) (cause : Option LossCause) (pos : Pos) (avg : Nat)
  /-- CHANNEL: channel, FENCED (or RESYNCHRONIZED), RING_OFS -/
  | channel (c : Ch) (fenced : Bool) (ofs : Nat)
  /-- ALERT: the flag set, and all flags after the change -/
  | alert (flag : AlertFlag) (flags : FlagSet)
  /-- FRAME_DONE: serial, slot, status byte -/
  | frameDone (serial : BitVec 32) (slot status : Nat)
  /-- FRAME_SKIPPED: serial, start kind SYNTHESIZED, reason code, mark position -/
  | frameSkipped (serial : BitVec 32) (synth : Bool) (reason : Nat) (pos : Pos)
  /-- LINE_FAULT: channel, kind, ring index -/
  | lineFault (c : Ch) (kind : FaultKind) (index : Nat)
  /-- STATUS -/
  | status
deriving DecidableEq, Repr

/-- A queued report (R138): its event, its priority and the two readings stamped when it was received. -/
structure Report where
  /-- kind and payload -/
  event : ReportEvent
  /-- priority at receipt (R139) -/
  priority : Nat
  /-- TIME at receipt -/
  time : Time
  /-- low 32 bits of WMAX at receipt -/
  wmaxLow : BitVec 32
deriving DecidableEq, Repr

/-- The write group in progress (R144): the records still to be admitted and the message still to follow them. -/
structure WriteGroup where
  /-- records not admitted yet, first to go first -/
  records : List Write
  /-- the message write, when the group has one that is still to be admitted -/
  message : Option Write
deriving DecidableEq, Repr

/-- RPU state. -/
structure Rpu where
  /-- report queue, head first -/
  queue : List Report
  /-- report writer: IDLE, or BUSY with a group -/
  writer : Option WriteGroup
  /-- report seq -/
  seq : BitVec 32
  /-- dropped count -/
  dropped : Nat
  /-- the folding flags that are SET, by channel and kind -/
  folded : List (Ch × FaultKind)
  /-- STATUS period count -/
  statusCount : Nat
  /-- the model's own: STATUS events that closures have made due and that are still to be raised (log 13) -/
  statusDue : Nat
deriving DecidableEq, Repr

/-! ## The part -/

/-- The whole state. -/
structure State where
  /-- the model's own: a reset is being held (log 5) -/
  inReset : Bool
  /-- input lines -/
  pins : Pins
  /-- Web Position Unit -/
  wpu : Wpu
  /-- Mark Tracker -/
  mkt : Mkt
  /-- Trigger Generator, per channel -/
  tgn : Quad Tgn
  /-- Line Binder, per channel -/
  lnb : Quad Lnb
  /-- Frame Table -/
  frt : Frt
  /-- Egress Unit -/
  egu : Egu
  /-- Report Unit -/
  rpu : Rpu
  /-- Speed and Alert Unit -/
  sau : Sau
  /-- Profile Loader -/
  pfl : Pfl
  /-- commands waiting, first in first out -/
  pending : List Instr
deriving DecidableEq, Repr

/-! ## Reset values -/

/-- WPU at reset (R14). -/
def Wpu.reset : Wpu :=
  { encRef := none, wpos := 0, wmax := 0, depth := 0, deepDelivered := false, deepest := 0, encErrors := 0, time := 0 }

/-- MKT at reset (R33). L_avg has no value before a profile is active: 0 here, DESIGN CHOICE (log 8). -/
def Mkt.reset : Mkt :=
  { lock := .search, markRef := false, cand := none, newest := none, deferred := false, history := [], lAvg := 0,
    coasting := 0, glitch := 0, inhibit := 0, edgePending := false }

/-- TGN of a channel at reset (R50). -/
def Tgn.reset : Tgn := { countdown := none, pulse := none, seq := 0, ptq := [] }

/-- All seven totals at 0. -/
def Totals.zero : Totals :=
  { unmatched := 0, straggler := 0, uncaptured := 0, fenced := 0, loading := 0, short := 0, misaligned := 0 }

/-- LNB of a channel at reset (R74, R91). -/
def Lnb.reset : Lnb :=
  { state := .disabled, ctx := none, kL := none, ringOfs := 0, unmatched := 0, totals := .zero, bytesOut := 0,
    wrapped := false }

/-- FRT at reset, the hold state following HOLD (R120). -/
def Frt.reset (held : Bool) : Frt := { entries := [], slotPtr := 0, serial := 0, held := held, writeList := [] }

/-- EGU at reset (R133). -/
def Egu.reset : Egu :=
  { hostUp := false, hostRisen := false, grabberRunning := false, trained := false, egress := [], ingress := none,
    flowOpen := false, downstream := [] }

/-- RPU at reset (R150). -/
def Rpu.reset : Rpu :=
  { queue := [], writer := none, seq := 0, dropped := 0, folded := [], statusCount := 0, statusDue := 0 }

/-- No condition holding. -/
def Conditions.none : Conditions :=
  { speedHigh := false, speedLow := false, repeatLong := false, repeatShort := false, channelFenced := false,
    profileFallback := false }

/-- No flag SET. -/
def FlagSet.none : FlagSet :=
  { speedHigh := false, speedLow := false, repeatLong := false, repeatShort := false, channelFenced := false,
    profileFallback := false, lockLost := false, encoder := false, reportsDropped := false }

/-- SAU at reset (R161). -/
def Sau.reset : Sau :=
  { speedT0 := .none, raw := 0, blockSum := 0, blockCount := 0, speedAvg := 0, cond := .none, flags := .none,
    clearRef := true, alert := false }

/-- PFL at reset (R175). The PSEL stable value and first refusal reason have no value before the reset ends and the
first judgement: 0 and none here, DESIGN CHOICE (log 8). -/
def Pfl.reset (cause : StartCause) : Pfl :=
  { loader := .loadingInitial, active := none, target := none, staging := none, pselStable := 0, debounce := none,
    refused := none, startCause := cause, firstReason := none, owner := .loader, sgnt := false,
    transaction := none }

/-- Every block at its reset values, the reset still held; the lines and the waiting commands are as given. -/
def State.held (pins : Pins) (hold : Bool) (cause : StartCause) (pending : List Instr) : State :=
  { inReset := true, pins := pins, wpu := .reset, mkt := .reset, tgn := .all .reset, lnb := .all .reset,
    frt := .reset hold, egu := .reset, rpu := .reset, sau := .reset, pfl := .reset cause, pending := pending }

/-- Lines nobody drives (11.6): RDY and CLEAR inactive, SREQ inactive, PSEL 0. ENCA, ENCB and MARK low: DESIGN CHOICE
(log 6). -/
def Pins.undriven : Pins :=
  { encA := false, encB := false, mark := false, rdy := .all false, psel := 0, clear := false, sreq := false }

/-- The machine right after power is applied, with the power-on reset still held (log 5). -/
def State.reset : State := .held .undriven false .powerOn []

end Sys2Proof.Machine
end

