-- ==== Sys2Proof/Machine/Ops.lean ====
section
/-! DEFINITION. Shared operations over words and state: signed distance, saturating counts, little-endian bytes, the
quantities the rules derive from profile parameters, and the accessors of the state. -/

namespace Sys2Proof.Machine

/-! ## Words -/

/-- The signed distance from `a` to `b` (R10): (b − a) modulo 2^40, less 2^40 when that is 2^39 or more. -/
def sdist (a b : Pos) : Int := (b - a).toInt

/-- "b is at or past a" (R10). -/
def atOrPast (a b : Pos) : Bool := decide (0 ≤ sdist a b)

/-- "b is before a" (R10). -/
def before (a b : Pos) : Bool := decide (sdist a b < 0)

/-- A distance added to a position, modulo 2^40 (R10). -/
def posAdd (a : Pos) (n : Nat) : Pos := a + BitVec.ofNat 40 n

/-- A distance taken from a position, modulo 2^40 (R10). -/
def posSub (a : Pos) (n : Nat) : Pos := a - BitVec.ofNat 40 n

/-- An interval on TIME: the unsigned difference of two readings modulo 2^32 (R12). -/
def elapsed (now t0 : Time) : Nat := (now - t0).toNat

/-- A count one higher that stops at its stated maximum (introduction, "Arithmetic"). -/
def satInc (max n : Nat) : Nat := min max (n + 1)

/-- The `n` low bytes of a value, lowest first (R176). -/
def leBytes : Nat → Nat → List Byte
  | 0, _ => []
  | n + 1, v => BitVec.ofNat 8 v :: leBytes n (v / 256)

/-- The value of little-endian bytes (R176). -/
def leNat : List Byte → Nat
  | [] => 0
  | b :: bs => b.toNat + 256 * leNat bs

/-- `n` bytes written as 0 (R176). -/
def zeroBytes (n : Nat) : List Byte := List.replicate n 0

/-- A 64-bit address (R89: addresses are formed in 64-bit arithmetic). -/
def addr64 (n : Nat) : Addr := BitVec.ofNat 64 n

/-- 1 for true, 0 for false. -/
def bit (b : Bool) : Nat := if b then 1 else 0

/-! ## Quantities derived from profile parameters -/

/-- Low edge of the acceptance window (R21). -/
def Profile.wLo (p : Profile) : Nat := p.lExp - p.lTol

/-- High edge of the acceptance window (R21). -/
def Profile.wHi (p : Profile) : Nat := p.lExp + p.lTol

/-- The latency limit, LAT_CMP × 2^LAT_SCALE advances (opening of chapter 3). -/
def Profile.latencyLimit (p : Profile) : Nat := p.latCmp * 2 ^ p.latScale

/-- The settle distance (section 5.8). -/
def Profile.settle (p : Profile) : Nat := 2 * p.lTol + p.markMin + 1

/-- S_out: bytes per pixel written (R85). -/
def ChanProfile.sOut (q : ChanProfile) : Nat :=
  match q.format with
  | .narrow => 1
  | .pass | .byteExchange => q.sIn

/-- One past the last byte of the source aperture (R53). -/
def ChanProfile.apertureEnd (q : ChanProfile) : Nat := q.srcBase + q.srcPitch * q.srcLines

/-- The priority of a report kind (R139, Table 8-3). -/
def Profile.priority (p : Profile) : ReportEvent → Nat
  | .start _ _ _ => p.pri.start
  | .profile _ _ _ _ => p.pri.profile
  | .lock _ _ _ _ _ _ => p.pri.lock
  | .channel _ _ _ => p.pri.channel
  | .alert _ _ => p.pri.alert
  | .frameDone _ _ _ => p.pri.frameDone
  | .frameSkipped _ _ _ _ => p.pri.frameSkipped
  | .lineFault _ _ _ => p.pri.lineFault
  | .status => p.pri.status

/-! ## Accessors of the state -/

/-- The parameters of the active profile, if one is active. -/
def State.profile (s : State) : Option Profile := s.pfl.active.map (·.prof)

/-- Channel `c` is enabled in the active profile. -/
def State.enabled (s : State) (c : Ch) : Bool :=
  match s.profile with
  | none => false
  | some p => (p.ch.get c).enable

/-- `f` with the active profile; nothing while no profile is active. -/
def State.withProfile (f : Profile → State → State) (s : State) : State :=
  match s.profile with
  | none => s
  | some p => f p s

/-- Replaces channel `c`'s TGN state. -/
def State.setTgn (s : State) (c : Ch) (t : Tgn) : State := { s with tgn := s.tgn.set c t }

/-- Replaces channel `c`'s LNB state. -/
def State.setLnb (s : State) (c : Ch) (l : Lnb) : State := { s with lnb := s.lnb.set c l }

/-- Replaces the MKT state. -/
def State.setMkt (s : State) (m : Mkt) : State := { s with mkt := m }

/-- Replaces the frame entries. -/
def State.setEntries (s : State) (es : List FrameEntry) : State := { s with frt := { s.frt with entries := es } }

/-- Appends an item to the tail of the frame write list (R116). -/
def State.pushItem (s : State) (i : FrameItem) : State :=
  { s with frt := { s.frt with writeList := s.frt.writeList ++ [i] } }

/-- `f` for each channel in order of number. -/
def State.forChannels (f : Ch → State → State) (s : State) : State := Ch.all.foldl (fun t c => f c t) s

/-- The set of enabled channels as bits 0 to 3 (Table 11-1). -/
def State.channelSet (s : State) : Nat := (Ch.all.map fun c => bit (s.enabled c) * 2 ^ c.num).sum

/-- The number of the active profile (0 when none is active: then nothing is written). -/
def State.profileNumber (s : State) : Nat :=
  match s.pfl.active with
  | none => 0
  | some a => a.number.toNat

/-- The horizon of channel `c` under `p`: WMAX less its stagger distance (R111). -/
def State.horizon (s : State) (p : Profile) (c : Ch) : Pos := posSub s.wpu.wmax (p.ch.get c).stagger

/-- The level of MARK read as ACTIVE or not through MARK_POL of the active profile (R16); while none is active the
polarity is the free value of Config (log 7). -/
def State.markActive (s : State) (level : Bool) : Bool :=
  match s.profile with
  | none => level == Config.markActiveLevelWithoutProfile
  | some p => level != p.markActiveLow

end Sys2Proof.Machine
end

