-- ==== Sys2Proof/Machine/Formats.lean ====
section
/-! DEFINITION. The byte layouts of chapter 11 that the part writes: codes, frame header, frame trailer, report
record. -/

namespace Sys2Proof.Machine

/-! ## Codes (Table 11-1) -/

/-- Start kind code. -/
def startKindCode (synth : Bool) : Nat := bit synth

/-- End kind code. -/
def EndKind.code : EndKind → Nat
  | .real => 0
  | .synthesized => 1
  | .lockLossWindow => 2
  | .lockLossReversal => 3

/-- Lock state code. -/
def LockState.code : LockState → Nat
  | .search => 0
  | .locked => 1
  | .coasting => 2

/-- Lock-loss cause code, 0 for none. -/
def causeCode : Option LossCause → Nat
  | none => 0
  | some .window => 1
  | some .reversal => 2

/-- LINE_FAULT kind code. -/
def FaultKind.code : FaultKind → Nat
  | .uncaptured => 1
  | .overlong => 2
  | .unmatched => 3
  | .fenced => 4
  | .loading => 5
  | .short => 6
  | .straggler => 7
  | .bypassed => 8

/-- Refusal reason code, 0 for none. -/
def reasonCode : Option Reason → Nat
  | none => 0
  | some .checksum => 1
  | some .version => 2
  | some .range => 3
  | some .apertureOverlap => 4
  | some .regionOverlap => 5
  | some .columnSpan => 6
  | some .columnOverlap => 7
  | some .trim => 8
  | some .slotSize => 9
  | some .stagger => 10
  | some .format => 11
  | some .ring => 12

/-- Start cause code. -/
def StartCause.code : StartCause → Nat
  | .powerOn => 1
  | .resetPin => 2

/-- Alert flag number. -/
def AlertFlag.num : AlertFlag → Nat
  | .speedHigh => 0
  | .speedLow => 1
  | .repeatLong => 2
  | .repeatShort => 3
  | .channelFenced => 4
  | .profileFallback => 5
  | .lockLost => 6
  | .encoder => 7
  | .reportsDropped => 8

/-- The flags in order of number. -/
def AlertFlag.all : List AlertFlag :=
  [.speedHigh, .speedLow, .repeatLong, .repeatShort, .channelFenced, .profileFallback, .lockLost, .encoder,
    .reportsDropped]

/-- Whether a flag is SET. -/
def FlagSet.get (f : FlagSet) : AlertFlag → Bool
  | .speedHigh => f.speedHigh
  | .speedLow => f.speedLow
  | .repeatLong => f.repeatLong
  | .repeatShort => f.repeatShort
  | .channelFenced => f.channelFenced
  | .profileFallback => f.profileFallback
  | .lockLost => f.lockLost
  | .encoder => f.encoder
  | .reportsDropped => f.reportsDropped

/-- The flag set, one bit per flag number. -/
def FlagSet.bits (f : FlagSet) : Nat := (AlertFlag.all.map fun a => bit (f.get a) * 2 ^ a.num).sum

/-- Report kind code. A STATUS group's channel records have the code 10 (STATUS_CHANNEL). -/
def ReportEvent.kindCode : ReportEvent → Nat
  | .start _ _ _ => 1
  | .profile _ _ _ _ => 2
  | .lock _ _ _ _ _ _ => 3
  | .channel _ _ _ => 4
  | .alert _ _ => 5
  | .frameDone _ _ _ => 6
  | .frameSkipped _ _ _ _ => 7
  | .lineFault _ _ _ => 8
  | .status => 9

/-! ## Frame header and trailer -/

/-- The 64 bytes of a frame header (Table 11-5). -/
def headerBytes (s : State) (p : Profile) (serial : BitVec 32) (slot : Nat) (ms : Pos) (synth : Bool) : List Byte :=
  leBytes 4 serial.toNat ++ leBytes 1 slot ++ leBytes 1 s.profileNumber ++ leBytes 1 s.channelSet ++
    leBytes 1 (startKindCode synth) ++ leBytes 5 ms.toNat ++ zeroBytes 3 ++ leBytes 2 p.lp ++ leBytes 2 p.rows ++
    leBytes 4 p.rowBytes ++ leBytes 4 s.wpu.time.toNat ++ zeroBytes 36

/-- Channel `c`'s 16 bytes of a trailer (Table 11-6). -/
def trailerChannelBytes (s : State) (e : FrameEntry) (c : Ch) : List Byte :=
  let n := e.counts.get c
  leBytes 1 (bit (s.enabled c)) ++ zeroBytes 1 ++ leBytes 2 n.placed ++ leBytes 2 n.short ++ leBytes 2 n.overlong ++
    leBytes 2 n.expired ++ leBytes 2 n.skipped ++ zeroBytes 4

/-- The 128 bytes of a frame trailer (Table 11-6). -/
def trailerBytes (s : State) (e : FrameEntry) (me : Pos) (kind : EndKind) (rows status : Nat) : List Byte :=
  leBytes 4 e.serial.toNat ++ leBytes 1 e.slot ++ leBytes 1 s.profileNumber ++ zeroBytes 1 ++ leBytes 1 status ++
    leBytes 5 e.ms.toNat ++ leBytes 1 (startKindCode e.startSynth) ++ leBytes 1 kind.code ++ zeroBytes 1 ++
    leBytes 5 me.toNat ++ zeroBytes 3 ++ leBytes 4 rows ++ leBytes 4 s.wpu.time.toNat ++
    leBytes 5 s.wpu.wmax.toNat ++ zeroBytes 3 ++ leBytes 4 s.sau.speedAvg ++ zeroBytes 4 ++
    (Ch.all.map (trailerChannelBytes s e)).flatten ++ zeroBytes 12 ++ leBytes 4 e.serial.toNat

/-! ## Report record -/

/-- `l` followed by zero bytes up to `n`. -/
def padTo (n : Nat) (l : List Byte) : List Byte := l ++ zeroBytes (n - l.length)

/-- The 16 payload bytes of an event (Table 11-8). A STATUS event's are formed with its group. Payload bytes that the
table gives to no field are 0: DESIGN CHOICE (log 33). An L_avg above 16,777,215 leaves its low 24 bits in the 3 bytes
of a LOCK record: DESIGN CHOICE, unsafe (log 34). -/
def ReportEvent.payload : ReportEvent → List Byte
  | .start cause prof reason => padTo 16 (leBytes 1 cause.code ++ leBytes 1 prof.toNat ++ leBytes 1 (reasonCode reason))
  | .profile switched requested active reason =>
    padTo 16 (leBytes 1 (if switched then 1 else 2) ++ leBytes 1 requested.toNat ++ leBytes 1 active.toNat ++
      leBytes 1 (reasonCode reason))
  | .lock new old synth cause pos avg =>
    padTo 16 (leBytes 1 new.code ++ leBytes 1 old.code ++ leBytes 1 (bit synth) ++ leBytes 1 (causeCode cause) ++
      leBytes 5 pos.toNat ++ leBytes 3 avg)
  | .channel c fenced ofs => padTo 16 (leBytes 1 c.num ++ leBytes 1 (if fenced then 1 else 2) ++ leBytes 2 ofs)
  | .alert flag flags => padTo 16 (leBytes 1 flag.num ++ zeroBytes 1 ++ leBytes 2 flags.bits)
  | .frameDone serial slot st => padTo 16 (leBytes 4 serial.toNat ++ leBytes 1 slot ++ leBytes 1 st)
  | .frameSkipped serial synth reason pos =>
    padTo 16 (leBytes 4 serial.toNat ++ leBytes 1 (startKindCode synth) ++ leBytes 1 reason ++ zeroBytes 2 ++
      leBytes 5 pos.toNat)
  | .lineFault c kind index => padTo 16 (leBytes 1 c.num ++ leBytes 1 kind.code ++ leBytes 2 index)
  | .status => zeroBytes 16

/-- What a record of a group holds beside its seq, priority and dropped field: its kind code, its extension byte and
its bytes 8 to 31. -/
structure RecordBody where
  /-- kind code -/
  kind : Nat
  /-- extension byte -/
  ext : Nat
  /-- bytes 8 to 31 -/
  tail : List Byte
deriving DecidableEq, Repr

/-- The 32 bytes of a report record (Table 11-7). -/
def recordBytes (seq : BitVec 32) (priority dropped : Nat) (b : RecordBody) : List Byte :=
  leBytes 4 seq.toNat ++ leBytes 1 (b.kind + 16 * priority) ++ leBytes 1 b.ext ++ leBytes 2 dropped ++ b.tail

/-- Bytes 8 to 15 of an ordinary record: the stamp of R138. -/
def Report.stampBytes (r : Report) : List Byte := leBytes 4 r.time.toNat ++ leBytes 4 r.wmaxLow.toNat

/-- The extension byte of a STATUS_CHANNEL record (Table 11-8); bits that the table names no meaning for are 0: DESIGN
CHOICE (log 33). -/
def statusChannelExt (s : State) (c : Ch) (partB wrapped : Bool) : Nat :=
  c.num + 4 * bit partB + 16 * bit (s.enabled c) + 128 * bit wrapped

/-- The nine records of a STATUS group, with the figures as they stand (R149, R179). Bytes 28 to 31 of a part B record,
which Table 11-8 gives to no field, are 0: DESIGN CHOICE (log 33). -/
def statusBodies (s : State) (r : Report) : List RecordBody :=
  { kind := 9, ext := s.wpu.wmax.toNat / 2 ^ 32,
    tail := r.stampBytes ++ leBytes 4 s.wpu.wmax.toNat ++ leBytes 2 s.wpu.encErrors ++ leBytes 3 s.wpu.deepest ++
      leBytes 2 s.mkt.glitch ++ leBytes 2 s.mkt.inhibit ++ leBytes 3 s.sau.speedAvg } ::
  (Ch.all.map fun c =>
    let l := s.lnb.get c
    [{ kind := 10, ext := statusChannelExt s c false l.wrapped,
       tail := leBytes 5 l.bytesOut.toNat ++ zeroBytes 3 ++ leBytes 4 l.totals.unmatched ++
         leBytes 4 l.totals.straggler ++ leBytes 4 l.totals.uncaptured ++ leBytes 4 l.totals.fenced },
     { kind := 10, ext := statusChannelExt s c true false,
       tail := r.stampBytes ++ leBytes 4 l.totals.loading ++ leBytes 4 l.totals.short ++
         leBytes 4 l.totals.misaligned ++ zeroBytes 4 }]).flatten

/-- The records of a report's group: nine for STATUS, one for every other kind (R144). -/
def groupBodies (s : State) (r : Report) : List RecordBody :=
  match r.event with
  | .status => statusBodies s r
  | ev => [{ kind := ev.kindCode, ext := 0, tail := r.stampBytes ++ ev.payload }]

end Sys2Proof.Machine
end

