-- ==== Sys2Proof/Machine/Reports.lean ====
section
/-! DEFINITION. The Report Unit (chapter 8): receiving an event (stamp, folding, threshold, the queue and its
drops) and forming a write group. -/

namespace Sys2Proof.Machine

/-- A report inserted behind every report of its own priority or higher and ahead of every one of lower (R141). A START
report that waits for the host link is no exception, although R150 and R167 call its record the first: DEDUCED, unsafe
(log 36). -/
def insertReport (r : Report) : List Report → List Report
  | [] => [r]
  | q :: qs => if r.priority ≤ q.priority then q :: insertReport r qs else r :: q :: qs

/-- The event is a LINE_FAULT whose folding flag is SET (R140). -/
def State.folds (s : State) : ReportEvent → Bool
  | .lineFault c k _ => s.rpu.folded.contains (c, k)
  | .start _ _ _ | .profile _ _ _ _ | .lock _ _ _ _ _ _ | .channel _ _ _ | .alert _ _ | .frameDone _ _ _
  | .frameSkipped _ _ _ _ | .status => false

/-- The folding flag of a LINE_FAULT event becomes SET (R140); called when it is CLEAR. -/
def State.setFold (s : State) : ReportEvent → State
  | .lineFault c k _ => { s with rpu := { s.rpu with folded := s.rpu.folded ++ [(c, k)] } }
  | .start _ _ _ | .profile _ _ _ _ | .lock _ _ _ _ _ _ | .channel _ _ _ | .alert _ _ | .frameDone _ _ _
  | .frameSkipped _ _ _ _ | .status => s

/-- A report that passed the threshold joins the queue (R141), or meets a full one (R142). The flag says whether a
report was dropped. -/
def joinQueue (r : Report) (s : State) : State × Bool :=
  if s.rpu.queue.length < Config.reportCapacity then
    ({ s with rpu := { s.rpu with queue := insertReport r s.rpu.queue } }, false)
  else
    match s.rpu.queue.getLast? with
    | none => (s, false)
    | some q =>
      let n := satInc Config.sat16 s.rpu.dropped
      if q.priority < r.priority then
        ({ s with rpu := { s.rpu with queue := insertReport r s.rpu.queue.dropLast, dropped := n } }, true)
      else ({ s with rpu := { s.rpu with dropped := n } }, true)

/-- The RPU receives an event: nothing while no profile is active; otherwise stamp (R138), folding (R140), threshold
(R139) and queue. The flag says whether a report was dropped. -/
def admitReport (ev : ReportEvent) (s : State) : State × Bool :=
  match s.profile with
  | none => (s, false)
  | some p =>
    if s.folds ev then (s, false)
    else
      let t := s.setFold ev
      let r : Report :=
        { event := ev, priority := p.priority ev, time := s.wpu.time, wmaxLow := s.wpu.wmax.setWidth 32 }
      if p.reportThreshold < r.priority then joinQueue r t else (t, false)

/-- The address of the record of seq `q` (R145). -/
def recordAddr (p : Profile) (q : BitVec 32) : Addr := addr64 (p.reportBase + q.toNat % p.reportEntries * 32)

/-- The write group of a report, its records numbered from the report seq, the first carrying the dropped count
(R143, R144), its message by IRQ_LEVEL (R146). -/
def formGroup (p : Profile) (r : Report) (s : State) : WriteGroup :=
  { records := (groupBodies s r).zipIdx.map fun (b, j) =>
      let q := s.rpu.seq + BitVec.ofNat 32 j
      { addr := recordAddr p q, data := recordBytes q r.priority (if j = 0 then s.rpu.dropped else 0) b },
    message := if p.irqLevel ≤ r.priority then some { addr := addr64 p.msgAddr, data := leBytes 4 p.msgData } else none }

/-- The writer, IDLE, with a profile active and the host link UP, takes the head report and forms its group
(R144); otherwise nothing. -/
def formReportGroup (s : State) : State :=
  match s.profile, s.rpu.writer, s.rpu.queue with
  | some p, none, r :: rest =>
    if s.egu.hostUp then
      let g := formGroup p r s
      { s with rpu := { s.rpu with
          queue := rest, writer := some g, seq := s.rpu.seq + BitVec.ofNat 32 g.records.length, dropped := 0 } }
    else s
  | _, _, _ => s

/-- All 32 folding flags become CLEAR (R140, R152). -/
def clearFolding (s : State) : State := { s with rpu := { s.rpu with folded := [] } }

/-- The writer after the admission of a record or message: IDLE when neither remains (R145). -/
def WriteGroup.rest (g : WriteGroup) : Option WriteGroup :=
  if g.records.isEmpty && g.message.isNone then none else some g

end Sys2Proof.Machine
end

