-- ==== Sys2Proof/Machine/Flags.lean ====
section
/-! DEFINITION. The alert flags of the SAU (chapter 9): setting and clearing a flag, the ALERT line, the deliveries
of conditions, and the raising of report events, whose drops raise an alert flag in turn (R142, R160). -/

namespace Sys2Proof.Machine

/-- The flags with one made SET or CLEAR. -/
def FlagSet.put (f : FlagSet) (a : AlertFlag) (v : Bool) : FlagSet :=
  match a with
  | .speedHigh => { f with speedHigh := v }
  | .speedLow => { f with speedLow := v }
  | .repeatLong => { f with repeatLong := v }
  | .repeatShort => { f with repeatShort := v }
  | .channelFenced => { f with channelFenced := v }
  | .profileFallback => { f with profileFallback := v }
  | .lockLost => { f with lockLost := v }
  | .encoder => { f with encoder := v }
  | .reportsDropped => { f with reportsDropped := v }

/-- The conditions with one made HOLDS or NOT. -/
def Conditions.put (k : Conditions) (c : Cond) (v : Bool) : Conditions :=
  match c with
  | .speedHigh => { k with speedHigh := v }
  | .speedLow => { k with speedLow := v }
  | .repeatLong => { k with repeatLong := v }
  | .repeatShort => { k with repeatShort := v }
  | .channelFenced => { k with channelFenced := v }
  | .profileFallback => { k with profileFallback := v }

/-- Whether a condition HOLDS. -/
def Conditions.get (k : Conditions) : Cond → Bool
  | .speedHigh => k.speedHigh
  | .speedLow => k.speedLow
  | .repeatLong => k.repeatLong
  | .repeatShort => k.repeatShort
  | .channelFenced => k.channelFenced
  | .profileFallback => k.profileFallback

/-- The flag of a condition (Table 9-3). -/
def Cond.flag : Cond → AlertFlag
  | .speedHigh => .speedHigh
  | .speedLow => .speedLow
  | .repeatLong => .repeatLong
  | .repeatShort => .repeatShort
  | .channelFenced => .channelFenced
  | .profileFallback => .profileFallback

/-- ALERT_LATCH in force: the active profile's, OFF by default (R161). -/
def State.alertLatch (s : State) : Bool :=
  match s.profile with
  | none => false
  | some p => p.alertLatch

/-- ALERT_MASK in force: the active profile's, all nine flags by default (R161). -/
def State.alertMask (s : State) : BitVec 9 :=
  match s.profile with
  | none => BitVec.allOnes 9
  | some p => p.alertMask

/-- The output level that means "alert": high with ALERT_POL = ACTIVE_HIGH, low with ACTIVE_LOW, the default (R160,
R161). -/
def State.alertPolHigh (s : State) : Bool :=
  match s.profile with
  | none => false
  | some p => p.alertActiveHigh

/-- At least one flag that is in ALERT_MASK is SET (R160). -/
def State.alertDue (s : State) : Bool :=
  AlertFlag.all.any fun a => s.sau.flags.get a && s.alertMask.getLsbD a.num

/-- ALERT is evaluated anew (R160). -/
def evalAlert (s : State) : State := { s with sau := { s.sau with alert := s.alertDue } }

/-- The level of the ALERT pin, true for high (R160). -/
def State.alertPin (s : State) : Bool := s.sau.alert == s.alertPolHigh

/-- A flag becomes SET or CLEAR, and ALERT is evaluated (R160). -/
def putFlag (a : AlertFlag) (v : Bool) (s : State) : State :=
  evalAlert { s with sau := { s.sau with flags := s.sau.flags.put a v } }

/-- REPORTS_DROPPED is raised (R142). At a change from CLEAR to SET its ALERT report goes to the RPU; should that
report be dropped too, the flag is found SET and nothing more arises (R158, R160). -/
def raiseReportsDropped (s : State) : State :=
  if s.sau.flags.reportsDropped then s
  else
    let t := putFlag .reportsDropped true s
    (admitReport (.alert .reportsDropped t.sau.flags) t).1

/-- A report event is raised to the RPU (R138); a drop raises REPORTS_DROPPED (R142). -/
def raiseReport (ev : ReportEvent) (s : State) : State :=
  let r := admitReport ev s
  if r.2 then raiseReportsDropped r.1 else r.1

/-- A flag is made SET; at a change from CLEAR to SET an ALERT report is raised with the whole set after the change
(R158, R160). -/
def raiseFlag (a : AlertFlag) (s : State) : State :=
  if s.sau.flags.get a then s
  else
    let t := putFlag a true s
    raiseReport (.alert a t.sau.flags) t

/-- A delivery of a condition (R156) and its action on the flag (R157). -/
def deliver (c : Cond) (holds : Bool) (s : State) : State :=
  let t := { s with sau := { s.sau with cond := s.sau.cond.put c holds } }
  if holds then raiseFlag c.flag t
  else if t.alertLatch && c != .profileFallback then t
  else putFlag c.flag false t

/-- Both repeat-length conditions are delivered (R29), REPEAT_LONG first: DESIGN CHOICE (log 32). -/
def deliverRepeat (long short : Bool) (s : State) : State := deliver .repeatShort short (deliver .repeatLong long s)

/-- A comparison of `v` with the speed limits (R155). SPEED_HIGH acts on its flag before SPEED_LOW does: DESIGN CHOICE
(log 32). -/
def compareSpeed (p : Profile) (v : Nat) (s : State) : State :=
  deliver .speedLow (decide (v < p.spdLo * 16)) (deliver .speedHigh (decide (p.spdHi * 16 < v)) s)

/-- The flag a CLEAR pulse clears: every event flag, and with ALERT_LATCH = ON every condition flag except
PROFILE_FALLBACK (R159). -/
def State.clearedFlags (s : State) : FlagSet :=
  if s.alertLatch then { FlagSet.none with profileFallback := s.sau.flags.profileFallback }
  else { s.sau.flags with lockLost := false, encoder := false, reportsDropped := false }

end Sys2Proof.Machine
end

