-- ==== Sys2Proof/Machine/Frames.lean ====
section
/-! DEFINITION. The Frame Table (chapter 6): notices and counts, completion and closure, marks and lock-loss bounds,
opening and skipping, and the exit from FENCED that an opening may bring (R70). -/

namespace Sys2Proof.Machine

/-! ## Exit from FENCED (R70) -/

/-- The channel's LNB state at the exit from FENCED (R70). -/
def Lnb.leaveFence (l : Lnb) : Lnb := { l with state := .resync, ctx := none, kL := none, unmatched := 0 }

/-- Some channel is FENCED. -/
def State.anyFenced (s : State) : Bool := Ch.all.any fun c => (s.lnb.get c).state == .fenced

/-- Every FENCED channel moves to RESYNC, and CHANNEL_FENCED is delivered as not holding; nothing when no channel is
FENCED (R70). -/
def exitFences (s : State) : State :=
  if s.anyFenced then
    deliver .channelFenced false
      (s.forChannels fun c t => if (t.lnb.get c).state == .fenced then t.setLnb c (t.lnb.get c).leaveFence else t)
  else s

/-! ## Containment and counts -/

/-- The entry contains the web point `w` (R77). -/
def FrameEntry.contains (e : FrameEntry) (w : Pos) : Bool :=
  atOrPast e.ms w &&
    match e.fin with
    | none => true
    | some (me, _) => before me w

/-- Which count a notice increases (Table 6-5). -/
inductive CountKind where
  | placed | short | overlong | expired | skipped
deriving DecidableEq, Repr

/-- One count increased by one, saturating at 65,535 (R107). -/
def Counts.bump (n : Counts) : CountKind → Counts
  | .placed => { n with placed := satInc Config.sat16 n.placed }
  | .short => { n with short := satInc Config.sat16 n.short }
  | .overlong => { n with overlong := satInc Config.sat16 n.overlong }
  | .expired => { n with expired := satInc Config.sat16 n.expired }
  | .skipped => { n with skipped := satInc Config.sat16 n.skipped }

/-- The entries with channel `c`'s count increased in the one that contains `w`, if any (R107). -/
def bumpEntry (k : CountKind) (c : Ch) (w : Pos) : List FrameEntry → List FrameEntry
  | [] => []
  | e :: es =>
    if e.contains w then { e with counts := e.counts.set c ((e.counts.get c).bump k) } :: es
    else e :: bumpEntry k c w es

/-- A notice for channel `c` and web point `w` is counted (R107). -/
def countNotice (k : CountKind) (c : Ch) (w : Pos) (s : State) : State := s.setEntries (bumpEntry k c w s.frt.entries)

/-! ## Completion (R111 to R113) -/

/-- The head condition of R111: PTQc is empty or its head's w is at or past m_e. -/
def State.headClear (s : State) (c : Ch) (me : Pos) : Bool :=
  match (s.tgn.get c).ptq with
  | [] => true
  | r :: _ => atOrPast me r.w

/-- The context condition of R112. -/
def State.ctxClear (s : State) (c : Ch) (me : Pos) : Bool :=
  match (s.lnb.get c).ctx with
  | none => true
  | some l =>
    match l.disp, l.record with
    | .placed _ _ _, some r => !before me r.w
    | _, _ => true

/-- The entry, if BOUNDED, is done for channel `c` by the three conditions of R111. -/
def State.doneFor (s : State) (p : Profile) (e : FrameEntry) (c : Ch) : Bool :=
  match e.fin with
  | none => false
  | some (me, _) => atOrPast me (s.horizon p c) && s.headClear c me && s.ctxClear c me

/-- The entry with the done flags of the channels `cs` set where the rule holds; a SET flag stays SET (R113). -/
def State.markDone (s : State) (p : Profile) (cs : List Ch) (e : FrameEntry) : FrameEntry :=
  cs.foldl (fun e c => if (p.ch.get c).enable && s.doneFor p e c then { e with done := e.done.set c true } else e) e

/-- The entry is BOUNDED and done for every enabled channel (R114). -/
def FrameEntry.complete (p : Profile) (e : FrameEntry) : Bool :=
  e.fin.isSome && Ch.all.all fun c => !(p.ch.get c).enable || e.done.get c

/-! ## Slots (R102, R117, R118) -/

/-- Offset of a slot's base address from the start of the address space (R117). -/
def Profile.slotStart (p : Profile) (slot : Nat) : Nat := p.slotBase + slot * p.slotStride

/-- Offset of the trailer in its slot (R118). -/
def Profile.trailerOffset (p : Profile) : Nat := 64 + p.rows * p.rowBytes

/-- A slot is free: no live entry holds it and no trailer addressed to it waits (R102). -/
def State.slotFree (s : State) (slot : Nat) : Bool :=
  (s.frt.entries.all fun e => e.slot != slot) &&
    s.frt.writeList.all fun i => !(i.kind == .trailer && i.slot == slot)

/-- The first free slot from the slot pointer upward, modulo SLOTS (R103). -/
def State.findSlot (s : State) (p : Profile) : Option Nat :=
  ((List.range p.slots).map fun i => (s.frt.slotPtr + i) % p.slots).find? s.slotFree

/-! ## Closure (R114, R115, R118, R119, R147) -/

/-- Rows in a repeat (R95). -/
def Profile.rowsInRepeat (p : Profile) (ms me : Pos) : Nat := min p.rows (((sdist ms me).toNat + p.lp - 1) / p.lp)

/-- The condition is DEGRADED: the link-reset flag is SET or an enabled channel has skipped, expired, short or
overlong lines (R115). -/
def FrameEntry.degraded (p : Profile) (e : FrameEntry) : Bool :=
  e.linkReset || Ch.all.any fun c =>
    let n := e.counts.get c
    (p.ch.get c).enable && (n.skipped != 0 || n.expired != 0 || n.short != 0 || n.overlong != 0)

/-- The status byte: the condition and the four flags (R115, Table 11-1). -/
def State.statusOf (s : State) (p : Profile) (e : FrameEntry) (kind : EndKind) : Nat :=
  bit (e.degraded p) + 2 * bit s.sau.cond.speedLow + 4 * bit e.linkReset + 8 * bit e.startSynth +
    16 * bit (kind != .real)

/-- The trailer's writes: one of 128 bytes, or two of 64 where a 4 KiB boundary lies at T + 64 (R118). -/
def trailerWrites (p : Profile) (slot : Nat) (bytes : List Byte) : List Write :=
  let t := p.slotStart slot + p.trailerOffset
  if p.trailerOffset % Config.pageBytes = 4032 then
    [{ addr := addr64 t, data := bytes.take 64 }, { addr := addr64 (t + 64), data := bytes.drop 64 }]
  else [{ addr := addr64 t, data := bytes }]

/-- A closure counts toward the STATUS period (R147), whose count stays at 0 with STATUS_PERIOD = 0 (log 22); an event
it makes due is left for its own row (log 13). -/
def countClosure (p : Profile) (s : State) : State :=
  if p.statusPeriod = 0 then { s with rpu := { s.rpu with statusCount := 0 } }
  else if p.statusPeriod ≤ s.rpu.statusCount + 1 then
    { s with rpu := { s.rpu with statusCount := 0, statusDue := s.rpu.statusDue + 1 } }
  else { s with rpu := { s.rpu with statusCount := s.rpu.statusCount + 1 } }

/-- The closure of one BOUNDED entry: status, trailer, FRAME_DONE, removal (R114), then the STATUS period (R147). -/
def closeEntry (p : Profile) (e : FrameEntry) (s : State) : State :=
  match e.fin with
  | none => s
  | some (me, kind) =>
    let st := s.statusOf p e kind
    let bytes := trailerBytes s e me kind (p.rowsInRepeat e.ms me) st
    let t := s.pushItem { kind := .trailer, slot := e.slot, serial := e.serial, writes := trailerWrites p e.slot bytes }
    let u := raiseReport (.frameDone e.serial e.slot st) t
    countClosure p (u.setEntries (u.frt.entries.filter (· != e)))

/-- Every complete entry closes, oldest first (R114). -/
def closeComplete (p : Profile) (s : State) : State :=
  (s.frt.entries.filter (·.complete p)).foldl (fun t e => closeEntry p e t) s

/-- The completion rule is evaluated for the channels `cs` and the BOUNDED entries `sel` takes, and what is complete
closes (R113, R114). -/
def evaluate (cs : List Ch) (sel : FrameEntry → Bool) (s : State) : State :=
  s.withProfile (fun p s =>
    closeComplete p (s.setEntries (s.frt.entries.map fun e => if sel e then s.markDone p cs e else e)))

/-- The rule evaluated after a notice of channel `c` (R113). -/
def evaluateChannel (c : Ch) (s : State) : State := evaluate [c] (fun _ => true) s

/-- The rule evaluated at an advance (R113). -/
def evaluateAll (s : State) : State := evaluate Ch.all (fun _ => true) s

/-! ## Marks (R98 to R106) -/

/-- What a bound does to the newest entry. -/
def setNewest (es : List FrameEntry) (e : FrameEntry) : List FrameEntry := es.dropLast ++ [e]

/-- Step 2 of R99: the newest entry, OPEN, becomes BOUNDED at `m`; one bounded by a lock-loss bound strictly past `m`
has its end mark moved back (R106). Gives the serial of the entry that became BOUNDED. -/
def boundAtMark (m : Mark) (s : State) : State × Option (BitVec 32) :=
  match s.frt.entries.getLast? with
  | none => (s, none)
  | some e =>
    match e.fin with
    | none =>
      (s.setEntries (setNewest s.frt.entries { e with fin := some (m.pos, if m.synth then .synthesized else .real) }),
        some e.serial)
    | some (me, kind) =>
      if (kind == .lockLossWindow || kind == .lockLossReversal) && decide (1 ≤ sdist m.pos me) then
        (s.setEntries (setNewest s.frt.entries { e with fin := some (m.pos, kind) }), none)
      else (s, none)

/-- An entry is opened at the mark in slot `j` (R103, R104): header item, entry, and with AUTO_RESYNC the exit from
FENCED (R70). -/
def openEntry (p : Profile) (m : Mark) (j : Nat) (s : State) : State :=
  let item : FrameItem :=
    { kind := .header, slot := j, serial := s.frt.serial,
      writes := [{ addr := addr64 (p.slotStart j), data := headerBytes s p s.frt.serial j m.pos m.synth }] }
  let e : FrameEntry :=
    { serial := s.frt.serial, slot := j, ms := m.pos, startSynth := m.synth, fin := none, linkReset := false,
      done := .all false, counts := .all { placed := 0, short := 0, overlong := 0, expired := 0, skipped := 0 },
      header := item }
  let t := { s with frt := { s.frt with
    entries := s.frt.entries ++ [e], slotPtr := (j + 1) % p.slots, writeList := s.frt.writeList ++ [item] } }
  if p.autoResync then exitFences t else t

/-- The loader withholds new captures (check 2 of Table 6-4). -/
def State.draining (s : State) : Bool :=
  match s.pfl.loader with
  | .draining | .awaitingStore | .loading => true
  | .loadingInitial | .running | .fallback => false

/-- Step 3 of R99: the checks of Table 6-4 in order; the frame is skipped, or an entry is opened (R100). -/
def openOrSkip (p : Profile) (m : Mark) (s : State) : State :=
  let skip (reason : Nat) := raiseReport (.frameSkipped s.frt.serial m.synth reason m.pos) s
  if s.frt.held then skip 1
  else if s.draining then skip 2
  else
    match s.findSlot p with
    | none => skip 3
    | some j => openEntry p m j s

/-- The FRT handles a mark the MKT delivers: serial, bound, open or skip, completion (R99). -/
def deliverMark (m : Mark) (s : State) : State :=
  s.withProfile fun p s =>
    let b := boundAtMark m { s with frt := { s.frt with serial := s.frt.serial + 1 } }
    let t := openOrSkip p m b.1
    match b.2 with
    | none => t
    | some serial => evaluate Ch.all (fun e => e.serial == serial) t

/-- The FRT handles a lock-loss notice: the newest entry, if OPEN, is BOUNDED at the bound and evaluated (R105). -/
def deliverLoss (b : Pos) (cause : LossCause) (s : State) : State :=
  match s.frt.entries.getLast? with
  | none => s
  | some e =>
    if e.fin.isNone then
      let kind : EndKind := match cause with
        | .window => .lockLossWindow
        | .reversal => .lockLossReversal
      evaluate Ch.all (fun x => x.serial == e.serial)
        (s.setEntries (setNewest s.frt.entries { e with fin := some (b, kind) }))
    else s

/-! ## Host-link reset (R121, R135) -/

/-- The entry's header item is on the frame write list. -/
def State.headerWaits (s : State) (e : FrameEntry) : Bool :=
  s.frt.writeList.any fun i => i.kind == .header && i.serial == e.serial && i.slot == e.slot

/-- Every live entry is flagged, and the headers that have left the list are repeated (R121, R134, R135). -/
def flagLinkReset (s : State) : State :=
  let again := (s.frt.entries.filter fun e => !s.headerWaits e).map (·.header)
  { s with frt := { s.frt with
    entries := s.frt.entries.map fun e => { e with linkReset := true }, writeList := s.frt.writeList ++ again } }

end Sys2Proof.Machine
end

