-- ==== Sys2Proof/Machine/Placement.lean ====
section
/-! DEFINITION. The Placement Unit (chapter 5): frame requests and the placement of a sub-piece. It has no state. -/

namespace Sys2Proof.Machine

/-! ## Frame requests (R77 to R79) -/

/-- The disposition a frame request returns for a web point (R77, R78, R79). -/
def State.frameRequest (s : State) (p : Profile) (w : Pos) : Disposition :=
  match s.frt.entries.find? (·.contains w) with
  | none => .refused .uncaptured
  | some e =>
    let r := (sdist e.ms w).toNat / p.lp
    if p.rows ≤ r then .refused .overlong else .placed e.serial e.slot r

/-! ## Bytes to pixels (R81 to R84) -/

/-- The pixel bytes of a line: whole pixels only (R81). -/
def ChanProfile.pixelBytes (q : ChanProfile) : Nat := q.sIn * (q.lineBytes / q.sIn)

/-- A run of whole pixels: the index of the first, and each pixel's bytes as received. -/
structure PixelRun where
  /-- index x of the first pixel -/
  first : Nat
  /-- the pixels, lowest index first -/
  pixels : List (List Byte)
deriving DecidableEq, Repr

/-- Bytes taken in pairs; an unpaired last byte is dropped, and the flag says so (R82). -/
def pairUp : List Byte → List (List Byte) × Nat
  | [] => ([], 0)
  | [_] => ([], 1)
  | l :: h :: rest => ([l, h] :: (pairUp rest).1, (pairUp rest).2)

/-- The whole pixels of a sub-piece at byte `b`, and how many bytes were dropped as half pixels (R81, R82). -/
def ChanProfile.toPixels (q : ChanProfile) (b : Nat) (data : List Byte) : PixelRun × Nat :=
  if q.sIn = 1 then ({ first := b, pixels := data.map fun x => [x] }, 0)
  else
    let data := data.take (q.pixelBytes - b)
    if b % 2 = 1 then
      match data with
      | [] => ({ first := (b + 1) / 2, pixels := [] }, 0)
      | _ :: rest => ({ first := (b + 1) / 2, pixels := (pairUp rest).1 }, (pairUp rest).2 + 1)
    else ({ first := b / 2, pixels := (pairUp data).1 }, (pairUp data).2)

/-- The kept pixels: those in TRIM_LO_c to TRIM_HI_c − 1 (R83). -/
def ChanProfile.trim (q : ChanProfile) (r : PixelRun) : PixelRun :=
  { first := max r.first q.trimLo,
    pixels := (r.pixels.take (q.trimHi - r.first)).drop (q.trimLo - r.first) }

/-! ## Conversion, columns, addresses (R85 to R90) -/

/-- The output bytes of one pixel (R85, R86, Table 5-2). -/
def ChanProfile.convert (q : ChanProfile) (px : List Byte) : List Byte :=
  match q.format with
  | .pass => px
  | .byteExchange => px.reverse
  | .narrow => [BitVec.ofNat 8 (min 255 (leNat px / 2 ^ q.shift))]

/-- X_min: the lowest column of a kept run (R87, R88). -/
def ChanProfile.firstColumn (q : ChanProfile) (r : PixelRun) : Nat :=
  if q.mirror then q.colBase + (q.trimHi - (r.first + r.pixels.length)) else q.colBase + (r.first - q.trimLo)

/-- The kept pixels in ascending column order: under mirror in descending x (R87, R88). -/
def ChanProfile.ordered (q : ChanProfile) (r : PixelRun) : List (List Byte) :=
  if q.mirror then r.pixels.reverse else r.pixels

/-- A run of bytes at an address, cut at every 4 KiB boundary strictly inside it (R90). The first argument bounds the
number of cuts. -/
def cutPages : Nat → Nat → List Byte → List Write
  | 0, a, data => [{ addr := addr64 a, data := data }]
  | n + 1, a, data =>
    let room := Config.pageBytes - a % Config.pageBytes
    if data.length ≤ room then [{ addr := addr64 a, data := data }]
    else { addr := addr64 a, data := data.take room } :: cutPages n (a + room) (data.drop room)

/-- The destination address of a kept run (R89). -/
def placeAddr (p : Profile) (q : ChanProfile) (slot row : Nat) (r : PixelRun) : Nat :=
  p.slotStart slot + 64 + row * p.rowBytes + q.firstColumn r * q.sOut

/-- A placement request: the output writes of a sub-piece at byte `b` of a line PLACED at `slot` and `row`, and its
misaligned bytes (R81 to R90). -/
def placeSubPiece (p : Profile) (q : ChanProfile) (slot row b : Nat) (data : List Byte) : List Write × Nat :=
  let px := q.toPixels b data
  let r := q.trim px.1
  if r.pixels.isEmpty then ([], px.2)
  else
    let a := placeAddr p q slot row r
    let out := ((q.ordered r).map q.convert).flatten
    (cutPages out.length (a % 2 ^ 64) out, px.2)

end Sys2Proof.Machine
end

