-- ==== Sys2Proof/Machine/Marks.lean ====
section
/-! DEFINITION. The Mark Tracker (chapter 2): the length history and repeat average, acceptance, the window, the loss
of lock, and the part of an advance the MKT handles. -/

namespace Sys2Proof.Machine

/-! ## Repeat average (R27, R28) -/

/-- L_avg of a length history: L_EXP when it is empty, else the rounded mean of the newest REPEAT_AVG lengths (R28).
Where the mean passes the 16,777,215 of Table 2-1 it is held as R28 forms it: DESIGN CHOICE, unsafe (log 34). -/
def repeatAverage (p : Profile) (history : List Nat) : Nat :=
  match history with
  | [] => p.lExp
  | _ :: _ =>
    let n := min p.repeatAvg history.length
    ((history.take n).sum + n / 2) / n

/-- The length history changes, and L_avg is formed anew (R28). -/
def setHistory (p : Profile) (h : List Nat) (m : Mkt) : Mkt := { m with history := h, lAvg := repeatAverage p h }

/-- A new length at the head; of 16 the oldest is dropped (R27). -/
def addLength (d : Nat) (h : List Nat) : List Nat := (d :: h).take Config.historyCapacity

/-- The signed distance from the newest mark's position to `x`; 0 with no newest mark (not met while locked). -/
def Mkt.fromNewest (m : Mkt) (x : Pos) : Int :=
  match m.newest with
  | none => 0
  | some n => sdist n.pos x

/-- The position of the newest mark; 0 with none (not met while locked). -/
def Mkt.newestPos (m : Mkt) : Pos :=
  match m.newest with
  | none => 0
  | some n => n.pos

/-! ## Acceptance (R20, R22) -/

/-- A qualified candidate is accepted in SEARCH (R20). -/
def acceptInSearch (k : Candidate) (s : State) : State :=
  let m := s.mkt
  let t := s.setMkt
    { m with newest := some ⟨k.start, false⟩, lock := .locked, coasting := 0, deferred := false, cand := none }
  raiseReport (.lock .locked m.lock false none k.start t.mkt.lAvg) (deliverMark ⟨k.start, false⟩ t)

/-- A qualified candidate is accepted as a real mark in LOCKED or COASTING (R22), with the repeat-length conditions
of R29. -/
def acceptReal (p : Profile) (k : Candidate) (s : State) : State :=
  let m := s.mkt
  let d := (m.fromNewest k.start).toNat
  let t := s.setMkt (setHistory p (addLength d m.history)
    { m with newest := some ⟨k.start, false⟩, lock := .locked, coasting := 0, deferred := false, cand := none })
  let v := if p.slowRepeat then t.mkt.lAvg else d
  let u := deliverMark ⟨k.start, false⟩ (deliverRepeat (decide (p.lHi < v)) (decide (v < p.lLo)) t)
  if m.lock = .coasting then raiseReport (.lock .locked m.lock false none k.start t.mkt.lAvg) u else u

/-! ## Window expiry (R24, R25) and loss of lock (R25, R26) -/

/-- A mark is synthesized at m_n + L_avg (R24). -/
def synthesize (s : State) : State :=
  let m := s.mkt
  let x := posAdd m.newestPos m.lAvg
  let t := s.setMkt
    { m with newest := some ⟨x, true⟩, coasting := m.coasting + 1, deferred := false, lock := .coasting }
  let u := deliverMark ⟨x, true⟩ t
  if m.lock = .locked then raiseReport (.lock .coasting m.lock true none x m.lAvg) u else u

/-- Lock is lost with the bound m_n + L_avg (R25; R26 for a reversal, whose caller has discarded the candidate). -/
def loseLock (p : Profile) (cause : LossCause) (s : State) : State :=
  let m := s.mkt
  let b := posAdd m.newestPos m.lAvg
  let t := raiseFlag .lockLost (deliverLoss b cause s)
  let u := t.setMkt (setHistory p []
    { t.mkt with lock := .search, newest := none, coasting := 0, deferred := false })
  deliverRepeat false false (raiseReport (.lock .search m.lock true (some cause) b u.mkt.lAvg) u)

/-- A window expiry is carried out (R23): a mark is synthesized below MISS_MAX, and lock is lost at it. -/
def expireWindow (p : Profile) (s : State) : State :=
  if s.mkt.coasting < p.missMax then synthesize s else loseLock p .window s

/-! ## What is due at an advance -/

/-- A candidate's advance count has reached its MARK_MIN (R19). -/
def State.qualifiesDue (s : State) : Bool :=
  s.profile.isSome &&
    match s.mkt.cand with
    | none => false
    | some k => decide (k.markMin ≤ k.count)

/-- The window has run out (R23): in LOCKED or COASTING with the expiry not deferred, WMAX is W_hi + 1 past the
newest mark, and no candidate is to be accepted first. -/
def State.windowDue (s : State) : Bool :=
  match s.profile with
  | none => false
  | some p =>
    !s.qualifiesDue && s.mkt.lock != .search && !s.mkt.deferred && s.mkt.newest.isSome &&
      decide ((p.wHi : Int) + 1 ≤ s.mkt.fromNewest s.wpu.wmax)

/-- Step 4 of R17: a mark edge with no candidate starts one or is inhibited (R18, R21). An edge past W_hi, which the
note to R17 excludes, starts nothing (log 21). -/
def startCandidate (p : Profile) (s : State) : State :=
  let m := s.mkt
  let fresh (inWindow : Bool) : State :=
    s.setMkt { m with cand := some { start := s.wpu.wmax, count := 0, inWindow := inWindow, markMin := p.markMin } }
  match m.cand, m.lock with
  | some _, _ => s
  | none, .search => fresh false
  | none, .locked | none, .coasting =>
    let d := m.fromNewest s.wpu.wmax
    if d < (p.wLo : Int) then s.setMkt { m with inhibit := satInc Config.sat16 m.inhibit }
    else if d ≤ (p.wHi : Int) then fresh true
    else s

/-- Step 4 of R17, once steps 2 and 3 of the advance in hand are done (log 2). -/
def finishAdvance (s : State) : State :=
  s.withProfile fun p s =>
    if s.mkt.edgePending && !s.qualifiesDue && !s.windowDue then
      startCandidate p (s.setMkt { s.mkt with edgePending := false })
    else s

/-- CANDIDATE_QUALIFIES: the candidate, when its count has reached MARK_MIN, is accepted, under R22 with its in-window
flag and under R20 without; then the advance goes on (R17). -/
def takeQualifies (s : State) : State :=
  match s.profile, s.mkt.cand with
  | some p, some k =>
    if s.qualifiesDue then finishAdvance (if k.inWindow then acceptReal p k s else acceptInSearch k s) else s
  | _, _ => s

/-- WINDOW_RUNS_OUT: with an in-window candidate still qualifying the expiry is deferred; otherwise it is carried out
(R23); then the advance goes on (R17). -/
def takeWindow (s : State) : State :=
  s.withProfile fun p s =>
    if s.windowDue then
      finishAdvance <|
        match s.mkt.cand with
        | some k => if k.inWindow then s.setMkt { s.mkt with deferred := true } else expireWindow p s
        | none => expireWindow p s
    else s

/-- Step 2 of R17 for a candidate of an earlier advance: counted when MARK is active, rejected when it is not, and a
rejection carries out a deferred expiry (R19, R23). -/
def candidateProgress (p : Profile) (active : Bool) (s : State) : State :=
  match s.mkt.cand with
  | none => s
  | some k =>
    if active then s.setMkt { s.mkt with cand := some { k with count := k.count + 1 } }
    else
      let t := s.setMkt { s.mkt with cand := none, glitch := satInc Config.sat16 s.mkt.glitch }
      if s.mkt.deferred then expireWindow p t else t

/-- The MKT's handling of an advance (R17), up to the acceptance or expiry that its own row takes; the reference
takes the sampled level (step 5). While no profile is active only the reference is set. -/
def mktAdvance (s : State) : State :=
  let active := s.markActive s.pins.mark
  match s.profile with
  | none => s.setMkt { s.mkt with markRef := active }
  | some p =>
    let edge := active && !s.mkt.markRef
    finishAdvance (candidateProgress p active (s.setMkt { s.mkt with markRef := active, edgePending := edge }))

/-- A deep reversal reaches the MKT (R26): in LOCKED or COASTING the candidate is discarded and lock is lost. -/
def mktDeepReversal (s : State) : State :=
  s.withProfile fun p s =>
    if s.mkt.lock = .search then s else loseLock p .reversal (s.setMkt { s.mkt with cand := none })

/-- The MKT is reset to SEARCH at an activation or refusal (R34), under the profile now active. -/
def mktRestart (p : Profile) (s : State) : State :=
  deliverRepeat false false (s.setMkt (setHistory p []
    { s.mkt with cand := none, newest := none, deferred := false, coasting := 0, lock := .search,
                 markRef := s.markActive s.pins.mark, edgePending := false }))

end Sys2Proof.Machine
end

