-- ==== Sys2Proof/Machine/Triggers.lean ====
section
/-! DEFINITION. The Trigger Generator (chapter 3): countdowns, fires, pulses, the latency monitor and the emptying of
a pending-trigger queue. -/

namespace Sys2Proof.Machine

/-! ## Notices that remove records (R48) -/

/-- The head record of PTQc is removed and noticed EXPIRED: counted, then the rule evaluated (R45, R48, R109). -/
def expireHead (c : Ch) (s : State) : State :=
  match (s.tgn.get c).ptq with
  | [] => s
  | r :: rest =>
    evaluateChannel c (countNotice .expired c r.w (s.setTgn c { s.tgn.get c with ptq := rest }))

/-- PTQc is emptied, oldest record first, each with its EXPIRED notice (R49). -/
def emptyQueue (c : Ch) (s : State) : State := (s.tgn.get c).ptq.foldl (fun t _ => expireHead c t) s

/-! ## Latency (R45) -/

/-- The head record of PTQc has reached the latency limit (R45). -/
def State.latencyDue (s : State) (c : Ch) : Bool :=
  match s.profile, (s.tgn.get c).ptq with
  | some p, r :: _ =>
    (p.ch.get c).enable && decide ((p.latencyLimit : Int) ≤ sdist r.p s.wpu.wmax)
  | _, _ => false

/-- LATENCY_EXPIRY of channel `c`: the head record, when it has reached the limit, leaves as EXPIRED (R45). -/
def takeLatency (c : Ch) (s : State) : State := if s.latencyDue c then expireHead c s else s

/-! ## Fires (R36 to R39) -/

/-- The countdown step of R36 for channel `c`: it decreases by one. At 0 the channel's fire is due. -/
def countDown (c : Ch) (s : State) : State :=
  if s.enabled c then
    match (s.tgn.get c).countdown with
    | none => s
    | some n => s.setTgn c { s.tgn.get c with countdown := some (n - 1) }
  else s

/-- The countdown of an enabled channel has reached 0 and its fire has not been judged (R36). -/
def State.fireDue (s : State) (c : Ch) : Bool := s.enabled c && (s.tgn.get c).countdown == some 0

/-- Why a fire is skipped (Table 3-3), first condition first; none when the trigger is emitted. -/
inductive SkipReason where
  | suppressed | pulseBusy | notReady | queueFull
deriving DecidableEq, Repr

/-- The checks at a fire in the order of Table 3-3 (R37, R38). -/
def State.skipReason (s : State) (c : Ch) : Option SkipReason :=
  if (s.lnb.get c).state = .fenced ∨ s.pfl.loader = .loading then some .suppressed
  else if (s.tgn.get c).pulse.isSome then some .pulseBusy
  else if s.pins.rdy.get c = false then some .notReady
  else if Config.ptqCapacity ≤ (s.tgn.get c).ptq.length then some .queueFull
  else none

/-- The trigger record of an emission at WMAX (R39). -/
def State.newRecord (s : State) (p : Profile) (c : Ch) : TrigRec :=
  { seq := (s.tgn.get c).seq, p := s.wpu.wmax, w := s.horizon p c }

/-- A trigger is emitted (R39). The EMITTED notice counts nothing (R108). -/
def emitTrigger (p : Profile) (c : Ch) (s : State) : State :=
  let t := s.tgn.get c
  s.setTgn c
    { t with pulse := some { t0 := s.wpu.time, width := p.trgWidth }, seq := t.seq + 1,
             ptq := t.ptq ++ [s.newRecord p c] }

/-- A fire is judged: emitted, or skipped with a trigger notice at WMAX − D_c (R37, R47, R108). -/
def judgeFire (p : Profile) (c : Ch) (s : State) : State :=
  match s.skipReason c with
  | none => emitTrigger p c s
  | some _ => countNotice .skipped c (s.horizon p c) s

/-- FIRE of channel `c`: the latency step first, then the countdown is reloaded with LP and the fire is judged
(R36). -/
def takeFire (c : Ch) (s : State) : State :=
  s.withProfile fun p s =>
    if s.fireDue c then
      let t := takeLatency c s
      judgeFire p c (t.setTgn c { t.tgn.get c with countdown := some p.lp })
    else s

/-! ## Pulses (R40) -/

/-- The TRG_WIDTH interval of channel `c`'s pulse has expired (R12, R40). -/
def State.pulseDue (s : State) (c : Ch) : Bool :=
  match (s.tgn.get c).pulse with
  | none => false
  | some q => decide (elapsed s.wpu.time q.t0 = q.width)

/-- TRIGGER_PULSE_END of channel `c`: TRGc goes inactive (R40). -/
def takePulseEnd (c : Ch) (s : State) : State :=
  if s.pulseDue c then s.setTgn c { s.tgn.get c with pulse := none } else s

/-! ## Activation and refusal (R51) -/

/-- At an activation or refusal: an enabled channel's countdown is loaded with TRG_PHASE_c + 1, a disabled one's is
stopped, and the queue is emptied (R51). -/
def tgnRestart (p : Profile) (c : Ch) (s : State) : State :=
  let q := p.ch.get c
  emptyQueue c (s.setTgn c
    { s.tgn.get c with countdown := if q.enable then some (q.trgPhase + 1) else none })

end Sys2Proof.Machine
end

