-- ==== Sys2Proof/Machine/Binding.lean ====
section
/-! DEFINITION. The Line Binder (chapter 4): the relation of a piece to the line in progress, binding, refusals, the
ends of lines, fencing, and the resets of channels. -/

namespace Sys2Proof.Machine

/-! ## Totals and events (R72, R73) -/

/-- The total of R73 that a kind increases; OVERLONG and BYPASSED have none. -/
def Totals.bump (n : Totals) : FaultKind → Totals
  | .uncaptured => { n with uncaptured := satInc Config.sat32 n.uncaptured }
  | .unmatched => { n with unmatched := satInc Config.sat32 n.unmatched }
  | .fenced => { n with fenced := satInc Config.sat32 n.fenced }
  | .loading => { n with loading := satInc Config.sat32 n.loading }
  | .short => { n with short := satInc Config.sat32 n.short }
  | .straggler => { n with straggler := satInc Config.sat32 n.straggler }
  | .overlong | .bypassed => n

/-- A LINE_FAULT occurrence: its total rises and its event is raised (R72, R73). -/
def lineFault (c : Ch) (kind : FaultKind) (index : Nat) (s : State) : State :=
  let l := s.lnb.get c
  raiseReport (.lineFault c kind index) (s.setLnb c { l with totals := l.totals.bump kind })

/-! ## Ends of lines -/

/-- The context becomes EMPTY and kL takes its k0 (R60, R62, R64). -/
def Lnb.endLine (l : Lnb) (n : Line) : Lnb := { l with ctx := none, kL := some n.k0 }

/-- A FILLING line is given up: superseded, stalled or cut by a host-link reset. PLACED, it ends SHORT with its
notice, total and event; REFUSED, it ends with no further outcome (R60, R62, R76). -/
def endShort (c : Ch) (s : State) : State :=
  let l := s.lnb.get c
  match l.ctx with
  | none => s
  | some n =>
    let t := s.setLnb c (l.endLine n)
    match n.disp with
    | .refused _ => t
    | .placed _ _ _ =>
      let u := match n.record with
        | none => t
        | some r => evaluateChannel c (countNotice .short c r.w t)
      lineFault c .short n.k0 u

/-- A line completes (R64): with a record, the COMPLETE notice has the rule evaluated (R110). -/
def completeLine (c : Ch) (s : State) : State :=
  let l := s.lnb.get c
  match l.ctx with
  | none => s
  | some n =>
    let t := s.setLnb c (l.endLine n)
    match n.record with
    | none => t
    | some _ => evaluateChannel c t

/-! ## Stall (R62) -/

/-- Channel `c`'s FILLING context has reached twice the latency limit past its start (R62). -/
def State.stallDue (s : State) (c : Ch) : Bool :=
  match s.profile, (s.lnb.get c).ctx with
  | some p, some n => decide (2 * (p.latencyLimit : Int) ≤ sdist n.start s.wpu.wmax)
  | _, _ => false

/-- STALL of channel `c`: the context is ended, as SHORT when PLACED (R62). -/
def takeStall (c : Ch) (s : State) : State := if s.stallDue c then endShort c s else s

/-! ## New lines (R63 to R68) -/

/-- The context begun by a new line of ring index `k` (R63), with the disposition and record given. -/
def State.newContext (s : State) (k : Nat) (record : Option TrigRec) (disp : Disposition) : Line :=
  { k0 := k, start := s.wpu.wmax, record := record, disp := disp, fill := 0, count := 0 }

/-- A new line is refused without a record (R65, R66, R67, R68). -/
def refuseLine (c : Ch) (k : Nat) (kind : FaultKind) (s : State) : State :=
  lineFault c kind k (s.setLnb c { s.lnb.get c with ctx := some (s.newContext k none (.refused kind)) })

/-- A new line is bound to a record that has left PTQc: its disposition is the frame request's, and the binding
notice is sent (R66, R71, R110). -/
def bindLine (p : Profile) (c : Ch) (k : Nat) (r : TrigRec) (s : State) : State :=
  let d := s.frameRequest p r.w
  let t := s.setLnb c { s.lnb.get c with ctx := some (s.newContext k (some r) d) }
  evaluateChannel c <|
    match d with
    | .placed _ _ _ => countNotice .placed c r.w t
    | .refused .overlong => countNotice .overlong c r.w (lineFault c .overlong k t)
    | .refused kind => lineFault c kind k t

/-- The expected index of a record (R66). -/
def expectedIndex (lines ofs : Nat) (r : TrigRec) : Nat := (r.seq.toNat + ofs) % lines

/-- The head record is removed as BYPASSED: notice, evaluation, event (R66, R71). -/
def bypassHead (lines : Nat) (c : Ch) (s : State) : State :=
  match (s.tgn.get c).ptq with
  | [] => s
  | r :: _ => lineFault c .bypassed (expectedIndex lines (s.lnb.get c).ringOfs r) (expireHead c s)

/-- The records ahead of the first whose expected index is `k`, and that record; none when there is none (R66). -/
def searchRecord (lines ofs k : Nat) : List TrigRec → Option (Nat × TrigRec)
  | [] => none
  | r :: rest =>
    if expectedIndex lines ofs r = k then some (0, r)
    else (searchRecord lines ofs k rest).map fun (n, x) => (n + 1, x)

/-- `f` done `n` times. -/
def repeatTimes (f : State → State) : Nat → State → State
  | 0, s => s
  | n + 1, s => repeatTimes f n (f s)

/-- A new line in RUNNING (R66): the search of PTQc, the bypassed records, the binding; or UNMATCHED. The fence that
follows at FENCE_COUNT is its own row. -/
def newLineRunning (p : Profile) (c : Ch) (k : Nat) (s : State) : State :=
  let lines := (p.ch.get c).srcLines
  let l := s.lnb.get c
  match searchRecord lines l.ringOfs k (s.tgn.get c).ptq with
  | none => refuseLine c k .unmatched (s.setLnb c { l with unmatched := l.unmatched + 1 })
  | some (n, r) =>
    let t := repeatTimes (bypassHead lines c) n s
    let u := t.setTgn c { t.tgn.get c with ptq := (t.tgn.get c).ptq.drop 1 }
    bindLine p c k r (u.setLnb c { u.lnb.get c with unmatched := 0 })

/-- The ring offset learned from a line's index and a record's seq: (k − seq) modulo SRC_LINES (R65). -/
def learnedOffset (lines k : Nat) (seq : BitVec 32) : Nat := (((k : Int) - (seq.toNat : Int)) % (lines : Int)).toNat

/-- A new line in RESYNC (R65): the head record is adopted, or with an empty queue the line is UNMATCHED. -/
def newLineResync (p : Profile) (c : Ch) (k : Nat) (s : State) : State :=
  match (s.tgn.get c).ptq with
  | [] => refuseLine c k .unmatched s
  | r :: rest =>
    let t := s.setTgn c { s.tgn.get c with ptq := rest }
    let ofs := learnedOffset (p.ch.get c).srcLines k r.seq
    let u := t.setLnb c { t.lnb.get c with state := .running, ringOfs := ofs, unmatched := 0 }
    bindLine p c k r (raiseReport (.channel c false ofs) u)

/-- A new line's disposition by the first case of R63 that holds. -/
def newLine (p : Profile) (c : Ch) (k : Nat) (s : State) : State :=
  if s.pfl.loader = .loading then refuseLine c k .loading s
  else
    match (s.lnb.get c).state with
    | .fenced => refuseLine c k .fenced s
    | .resync => newLineResync p c k s
    | .running => newLineRunning p c k s
    | .disabled => s

/-! ## Pieces (R55 to R61) -/

/-- How a piece relates to the line context (Table 4-4). -/
inductive Relation where
  | continuation | straggler | newLine
deriving DecidableEq, Repr

/-- (k − reference) modulo SRC_LINES against half the ring: new line or late write (Table 4-4). -/
def ringRelation (lines reference k : Nat) (same : Relation) : Relation :=
  let d := (((k : Int) - (reference : Int)) % (lines : Int)).toNat
  if d = 0 then same else if 2 * d < lines then .newLine else .straggler

/-- The relation of a piece of ring index `k` (R57). -/
def Lnb.relation (l : Lnb) (lines k : Nat) : Relation :=
  match l.ctx, l.kL with
  | some n, _ => ringRelation lines n.k0 k .continuation
  | none, some kL => ringRelation lines kL k .straggler
  | none, none => .newLine

/-- The valid bytes at byte `b` taken against the fill mark (R56): the line after, and the accepted bytes with the
byte in line of the first. -/
def Line.accept (n : Line) (b : Nat) (valid : List Byte) : Line × Nat × List Byte :=
  let at0 := max b n.fill
  let acc := valid.drop (at0 - b)
  if acc.isEmpty then (n, at0, [])
  else ({ n with fill := b + valid.length, count := n.count + acc.length }, at0, acc)

/-- The misaligned-byte total raised by the bytes dropped as half pixels (R91). -/
def Lnb.addMisaligned (l : Lnb) (n : Nat) : Lnb :=
  { l with totals := { l.totals with misaligned := min Config.sat32 (l.totals.misaligned + n) } }

/-- A piece's valid bytes are taken by the FILLING line (R56, R59): accepted bytes of a PLACED line are placed, and a
line whose count reaches SRC_LINE_BYTES_c completes (R64). -/
def takeBytes (p : Profile) (c : Ch) (b : Nat) (valid : List Byte) (s : State) : State × List Write :=
  let q := p.ch.get c
  let l := s.lnb.get c
  match l.ctx with
  | none => (s, [])
  | some n =>
    let a := n.accept b valid
    let out := match n.disp with
      | .placed _ slot row => placeSubPiece p q slot row a.2.1 a.2.2
      | .refused _ => ([], 0)
    let t := s.setLnb c ({ l with ctx := some a.1 }.addMisaligned out.2)
    (if a.1.count = q.lineBytes then completeLine c t else t, out.1)

/-- A piece of channel `c` at offset `o` of its aperture is handled by the binder and the PLU (R55 to R66); gives the
output writes. -/
def handlePiece (p : Profile) (c : Ch) (o : Nat) (data : List Byte) (s : State) : State × List Write :=
  let q := p.ch.get c
  let k := o / q.srcPitch
  let b := o % q.srcPitch
  let valid := data.take (q.lineBytes - b)
  if valid.isEmpty then (s, [])
  else
    match (s.lnb.get c).relation q.srcLines k with
    | .straggler => (lineFault c .straggler k s, [])
    | .continuation => takeBytes p c b valid s
    | .newLine => takeBytes p c b valid (newLine p c k (endShort c s))

/-! ## Fencing (R69) -/

/-- Channel `c`, RUNNING, has an unmatched count of FENCE_COUNT (R66, R69). -/
def State.fenceDue (s : State) (c : Ch) : Bool :=
  match s.profile with
  | none => false
  | some p => (s.lnb.get c).state == .running && decide (p.fenceCount ≤ (s.lnb.get c).unmatched)

/-- The channel is fenced, in the order of R69. -/
def fenceChannel (c : Ch) (s : State) : State :=
  let others := Ch.all.any fun d => d != c && (s.lnb.get d).state == .fenced
  let t := emptyQueue c (s.setLnb c
    { s.lnb.get c with state := .fenced, unmatched := 0, ctx := none, kL := none })
  let u := if others then t else deliver .channelFenced true t
  raiseReport (.channel c true (u.lnb.get c).ringOfs) u

/-- FENCE of channel `c` (R69). -/
def takeFence (c : Ch) (s : State) : State := if s.fenceDue c then fenceChannel c s else s

/-! ## Resets of channels (R75, R76) -/

/-- A channel set afresh from the profile now active (R75). A line refused LOADING loses its context here like any
other, so that its next piece begins a new line in RESYNC, although R68 has the line keep its disposition: DEDUCED,
unsafe (log 35). -/
def Lnb.restart (l : Lnb) (enable : Bool) : Lnb :=
  { l with state := if enable then .resync else .disabled, ctx := none, kL := none, ringOfs := 0, unmatched := 0 }

/-- Every channel set afresh, and CHANNEL_FENCED delivered as not holding if it held (R75). -/
def lnbRestart (p : Profile) (s : State) : State :=
  let t := s.forChannels fun c t => t.setLnb c ((t.lnb.get c).restart (p.ch.get c).enable)
  if s.sau.cond.channelFenced then deliver .channelFenced false t else t

/-- A channel at a host-link reset (R76, R49): enabled and not FENCED, its PLACED line ends SHORT, it moves to RESYNC
with kL NONE and unmatched count 0, and its queue is emptied. -/
def channelLinkReset (c : Ch) (s : State) : State :=
  if s.enabled c && (s.lnb.get c).state != .fenced then
    let t := endShort c s
    emptyQueue c (t.setLnb c { t.lnb.get c with state := .resync, ctx := none, kL := none, unmatched := 0 })
  else s

end Sys2Proof.Machine
end

