-- ==== Sys2Proof/Machine/Operands.lean ====
section
/-! DEFINITION. The operands a grabber request brings: which apertures it touches, and the next part cut from the
front of its unadmitted bytes (R53, R54, R123). -/

namespace Sys2Proof.Machine

/-- Channel `c` steers: it is not DISABLED under the active profile (R53). -/
def State.steersOn (s : State) (c : Ch) : Bool := s.profile.isSome && (s.lnb.get c).state != .disabled

/-- The channels that steer, with their parameters. -/
def State.steering (s : State) : List (Ch × ChanProfile) :=
  match s.profile with
  | none => []
  | some p => (Ch.all.filter s.steersOn).map fun c => (c, p.ch.get c)

/-- At least one of the `n` bytes from `a` lies in a steering aperture (R53). -/
def State.touchesAperture (s : State) (a n : Nat) : Bool :=
  s.steering.any fun (_, q) => decide (a < q.apertureEnd) && decide (q.srcBase < a + n)

/-- A request is classified at its acceptance (Table 7-2). -/
def State.classify (s : State) (r : Request) : Bool :=
  r.kind == .memWrite && s.touchesAperture r.addr.toNat r.len

/-- The next part of the request in progress (R54): `n` bytes to pass through, or a piece of `n` bytes of channel
`c` at offset `o` of its aperture. -/
inductive Part where
  | pass (n : Nat)
  | piece (c : Ch) (o n : Nat)
deriving DecidableEq, Repr

/-- The nearest aperture edge ahead of `a`, if any is nearer than `n` bytes: how many bytes lie before it. -/
def bytesBeforeAperture (steering : List (Ch × ChanProfile)) (a n : Nat) : Nat :=
  steering.foldl (fun m (_, q) => if a < q.srcBase then min m (q.srcBase - a) else m) n

/-- The part at the front of the unadmitted bytes of a steering write, with the apertures of this moment (R54). -/
def State.cutPart (s : State) (a n : Nat) : Part :=
  match s.steering.find? fun (_, q) => decide (q.srcBase ≤ a) && decide (a < q.apertureEnd) with
  | some (c, q) => .piece c (a - q.srcBase) (min n (q.srcPitch - (a - q.srcBase) % q.srcPitch))
  | none => .pass (bytesBeforeAperture s.steering a n)

/-- The next part of a request in progress: a request that does not steer is one part, whole (R123, R124). -/
def State.nextPart (s : State) (g : Ingress) : Part :=
  if g.steers then s.cutPart g.addr g.data.length else .pass g.data.length

end Sys2Proof.Machine
end

