-- ==== Sys2Proof/Machine/Links.lean ====
section
/-! DEFINITION. The Egress Unit (chapter 7): the queue and its arbiter, the ingress, flow control, the downstream
queue, and the link states. -/

namespace Sys2Proof.Machine

/-! ## Flow control and room -/

/-- Free entries of the egress queue. -/
def State.freeEntries (s : State) : Nat := Config.egressCapacity - s.egu.egress.length

/-- The conditions under which the grabber flow control is OPEN (R128). -/
def State.flowMayOpen (s : State) : Bool :=
  s.egu.ingress.isNone && decide (2 ≤ s.freeEntries) && s.egu.grabberRunning && s.egu.trained

/-- The flow control is re-evaluated (R128). -/
def refreshFlow (s : State) : State := { s with egu := { s.egu with flowOpen := s.flowMayOpen } }

/-- Entries join the tail of the egress queue (R125). -/
def pushEgress (es : List Egress) (s : State) : State :=
  { s with egu := { s.egu with egress := s.egu.egress ++ es } }

/-- A posted write as an egress entry (R125). -/
def Write.toEgress (o : Origin) (w : Write) : Egress :=
  { origin := o, kind := .memWrite, addr := w.addr, len := w.data.length, data := w.data }

/-! ## Grants (R126) -/

/-- The frame write list's head item can be granted: the link is UP and the queue has an entry for each write. -/
def State.frameGrant (s : State) : Option FrameItem :=
  match s.frt.writeList with
  | [] => none
  | i :: _ => if s.egu.hostUp && decide (i.writes.length ≤ s.freeEntries) then some i else none

/-- The report writer's claim can be granted: the link is UP, the frame write list is empty, and an entry is free. -/
def State.reportGrant (s : State) : Bool :=
  s.egu.hostUp && s.frt.writeList.isEmpty && decide (1 ≤ s.freeEntries)

/-- The ingress's claim can be granted: the link is UP, the frame write list is empty, the report writer has no
pending write, and two entries are free; gives the request in progress. -/
def State.ingressGrant (s : State) : Option Ingress :=
  if s.egu.hostUp && s.frt.writeList.isEmpty && s.rpu.writer.isNone && decide (2 ≤ s.freeEntries) then s.egu.ingress
  else none

/-- FRAME_ITEM_ADMISSION: the head item is admitted whole and leaves the list (R126). -/
def admitFrameItem (s : State) : State :=
  match s.frameGrant with
  | none => s
  | some i =>
    refreshFlow (pushEgress (i.writes.map (·.toEgress .frame))
      { s with frt := { s.frt with writeList := s.frt.writeList.drop 1 } })

/-- REPORT_RECORD_ADMISSION: the group's next record is admitted (R145). -/
def admitRecord (s : State) : State :=
  match s.rpu.writer with
  | none => s
  | some g =>
    match g.records with
    | [] => s
    | w :: rest =>
      if s.reportGrant then
        refreshFlow (pushEgress [w.toEgress .report]
          { s with rpu := { s.rpu with writer := { g with records := rest }.rest } })
      else s

/-- MESSAGE_INTERRUPT: the group's message, all its records admitted, is admitted (R146). -/
def admitMessage (s : State) : State :=
  match s.rpu.writer with
  | none => s
  | some g =>
    match g.records, g.message with
    | [], some w =>
      if s.reportGrant then
        refreshFlow (pushEgress [w.toEgress .report] { s with rpu := { s.rpu with writer := none } })
      else s
    | _, _ => s

/-! ## The ingress (R123, R124, R127, R129) -/

/-- GRABBER_REQUEST_ACCEPT: with the ingress IDLE and the flow control OPEN the request is held whole and classified
(R123, R124). -/
def acceptRequest (r : Request) (s : State) : State :=
  if s.egu.ingress.isNone && s.egu.flowOpen then
    refreshFlow { s with egu := { s.egu with
      ingress := some { req := r, steers := s.classify r, addr := r.addr.toNat, data := r.data } } }
  else s

/-- The ingress after a part of `n` bytes: IDLE when no byte remains (R124). -/
def Ingress.after (g : Ingress) (n : Nat) : Option Ingress :=
  if (g.data.drop n).isEmpty then none else some { g with addr := g.addr + n, data := g.data.drop n }

/-- The output writes of a piece are counted at their admission (R91): 40 bits, the wrapped flag set at a wrap. -/
def Lnb.addBytesOut (l : Lnb) (n : Nat) : Lnb :=
  { l with bytesOut := l.bytesOut + BitVec.ofNat 40 n,
           wrapped := l.wrapped || decide (2 ^ 40 ≤ l.bytesOut.toNat + n) }

/-- A piece of `n` bytes of channel `c` at offset `o` is admitted: handled by the binder, its output writes join the
queue and are counted (R127). -/
def admitPieceOf (p : Profile) (g : Ingress) (c : Ch) (o n : Nat) (s : State) : State :=
  let r := handlePiece p c o (g.data.take n) s
  let bytes := (r.2.map (·.data.length)).sum
  let t := r.1.setLnb c ((r.1.lnb.get c).addBytesOut bytes)
  let u := pushEgress (r.2.map (·.toEgress .grabber)) t
  refreshFlow { u with egu := { u.egu with ingress := g.after n } }

/-- PIECE_ADMISSION: the ingress's next part, when it is a piece and is granted (R126, R127). -/
def admitPiece (s : State) : State :=
  match s.profile, s.ingressGrant with
  | some p, some g =>
    match s.nextPart g with
    | .piece c o n => admitPieceOf p g c o n s
    | .pass _ => s
  | _, _ => s

/-- The egress entry of a part that passes through: the whole request, or the bytes of the part (R54, R127). -/
def Ingress.passEntry (g : Ingress) (n : Nat) : Egress :=
  if g.steers then
    { origin := .grabber, kind := .memWrite, addr := addr64 g.addr, len := n, data := g.data.take n }
  else { origin := .grabber, kind := g.req.kind, addr := g.req.addr, len := g.req.len, data := g.req.data }

/-- PASS_THROUGH_ADMISSION: the ingress's next part, when it passes through and is granted (R127, R129). -/
def admitPass (s : State) : State :=
  match s.ingressGrant with
  | none => s
  | some g =>
    match s.nextPart g with
    | .piece _ _ _ => s
    | .pass n =>
      let t := pushEgress [g.passEntry n] s
      refreshFlow { t with egu := { t.egu with ingress := g.after n } }

/-! ## Sending and the downstream queue (R125, R130) -/

/-- EGRESS_SEND: the host link, UP, accepts the head entry (R125). -/
def sendEgress (s : State) : State :=
  if s.egu.hostUp then refreshFlow { s with egu := { s.egu with egress := s.egu.egress.drop 1 } } else s

/-- DOWNSTREAM_REQUEST: the host link, UP, delivers a request and the queue has room (R130). -/
def takeDownstream (r : Request) (s : State) : State :=
  if s.egu.hostUp && decide (s.egu.downstream.length < Config.downstreamCapacity) then
    { s with egu := { s.egu with downstream := s.egu.downstream ++ [r] } }
  else s

/-- DOWNSTREAM_SEND: the grabber link, RUNNING and trained, accepts the head request (R130, log 15). -/
def sendDownstream (s : State) : State :=
  if s.egu.grabberRunning && s.egu.trained then
    { s with egu := { s.egu with downstream := s.egu.downstream.drop 1 } }
  else s

/-! ## Link states (R133 to R137) -/

/-- The grabber link state becomes RUNNING when the host link is UP and the loader has left LOADING_INITIAL (R133,
R136). -/
def releaseGrabber (s : State) : State :=
  if s.egu.hostUp && s.pfl.loader != .loadingInitial then { s with egu := { s.egu with grabberRunning := true } } else s

/-- The host link comes UP (R133, R136). -/
def hostLinkUp (s : State) : State :=
  refreshFlow (releaseGrabber { s with egu := { s.egu with hostUp := true, hostRisen := true } })

/-- An entry of the egress queue is a report record: of origin REPORT and not a 4-byte message (R145, R146). -/
def Egress.isRecord (e : Egress) : Bool := e.origin == .report && e.len == 32

/-- A report record is discarded by a host-link reset: it counts as a dropped report, with REPORTS_DROPPED (R135,
R142). -/
def dropRecord (s : State) : State :=
  raiseReportsDropped { s with rpu := { s.rpu with dropped := satInc Config.sat16 s.rpu.dropped } }

/-- The report writer at a host-link reset: a message whose records have all been admitted is cancelled (R135, R146,
R151). -/
def WriteGroup.afterLinkReset (g : WriteGroup) : Option WriteGroup := if g.records.isEmpty then none else some g

/-- The EGU's own part of a host-link reset (R134). -/
def dropLinks (s : State) : State :=
  { s with
    egu := { s.egu with hostUp := false, grabberRunning := false, trained := false, egress := [], ingress := none,
                        downstream := [], flowOpen := false }
    rpu := { s.rpu with writer := s.rpu.writer.bind (·.afterLinkReset) } }

/-- HOST_LINK_RESET with the link UP (R134, R135): the queues go, the discarded records count as dropped, live
entries are flagged and headers repeated, and then the channels are reset with their notices (R76, R49). -/
def linkReset (s : State) : State :=
  let lost := (s.egu.egress.filter (·.isRecord)).length
  (flagLinkReset (repeatTimes dropRecord lost (dropLinks s))).forChannels channelLinkReset

/-- GRABBER_LINK_TRAINED: the grabber link, RUNNING, reports that it has trained (R128, R133, log 14). -/
def grabberTrained (s : State) : State :=
  if s.egu.grabberRunning then refreshFlow { s with egu := { s.egu with trained := true } } else s

/-- GRABBER_LINK_LOSS: with the host link UP a trained grabber link is lost (R137). -/
def grabberLost (s : State) : State :=
  if s.egu.hostUp && s.egu.trained then
    refreshFlow { s with egu := { s.egu with trained := false, downstream := [] } }
  else s

end Sys2Proof.Machine
end

