-- ==== Sys2Proof/Machine/Profiles.lean ====
section
/-! DEFINITION. Profiles (sections 10.1, 10.2 and 11.2): reading a record by Tables 11-3 and 11-4, and the consistency
checks of Table 10-2. -/

namespace Sys2Proof.Machine

/-! ## Reading fields (R163, R176, R177) -/

/-- The `n` bytes at an offset of a record or header; a byte the store does not answer reads FFH (R163). -/
def bytesAt (r : List Byte) (off n : Nat) : List Byte := (List.range n).map fun i => r.getD (off + i) 255

/-- The little-endian value of the `n` bytes at an offset. -/
def valueAt (r : List Byte) (off n : Nat) : Nat := leNat (bytesAt r off n)

/-- `width` bits from bit `lo` of the 32-bit word at an offset. -/
def fieldAt (r : List Byte) (off lo width : Nat) : Nat := valueAt r off 4 / 2 ^ lo % 2 ^ width

/-- A one-bit field. -/
def flagAt (r : List Byte) (off lo : Nat) : Bool := fieldAt r off lo 1 == 1

/-- FORMAT_c of its code; code 3 never passes the RANGE check. -/
def formatOfCode : Nat → Format
  | 1 => .byteExchange
  | 2 => .narrow
  | _ => .pass

/-- Offset of channel `c`'s block (Table 11-3). -/
def blockAt (c : Ch) : Nat := 140 + 28 * c.num

/-- Channel `c`'s parameters (Table 11-4). -/
def decodeChannel (r : List Byte) (c : Ch) : ChanProfile :=
  let o := blockAt c
  { srcBase := valueAt r o 8
    srcPitch := fieldAt r (o + 8) 0 21
    enable := flagAt r (o + 8) 21
    sIn := fieldAt r (o + 8) 22 1 + 1
    mirror := flagAt r (o + 8) 23
    format := formatOfCode (fieldAt r (o + 8) 24 2)
    shift := fieldAt r (o + 8) 26 4
    srcLines := fieldAt r (o + 12) 0 15
    lineBytes := fieldAt r (o + 12) 15 17
    stagger := fieldAt r (o + 16) 0 24
    trimLo := fieldAt r (o + 20) 0 16
    colBase := fieldAt r (o + 20) 16 16
    trimHi := fieldAt r (o + 24) 0 17
    trgPhase := fieldAt r (o + 24) 17 12 }

/-- The priorities (Table 11-3, offsets 72 and 76). -/
def decodePriorities (r : List Byte) : Priorities :=
  { start := fieldAt r 72 0 3
    profile := fieldAt r 72 4 3
    lock := fieldAt r 72 8 3
    channel := fieldAt r 72 12 3
    alert := fieldAt r 72 16 3
    frameDone := fieldAt r 72 20 3
    frameSkipped := fieldAt r 72 24 3
    lineFault := fieldAt r 72 28 3
    status := fieldAt r 76 0 3 }

/-- A profile's parameters (Table 11-3), with the coded fields of R177. -/
def decodeProfile (r : List Byte) : Profile :=
  { reverseLimit := fieldAt r 0 0 24
    markMin := fieldAt r 0 24 8
    lExp := fieldAt r 4 0 24
    missMax := fieldAt r 4 24 8
    lTol := fieldAt r 8 0 24
    encInverted := flagAt r 8 24
    markActiveLow := flagAt r 8 25
    slowRepeat := flagAt r 8 26
    autoResync := flagAt r 8 27
    slowSpeed := flagAt r 8 28
    alertLatch := flagAt r 8 29
    alertActiveHigh := flagAt r 8 30
    lLo := fieldAt r 12 0 24
    repeatAvg := 2 ^ fieldAt r 12 24 3
    spdAvg := 2 ^ fieldAt r 12 27 3
    lHi := fieldAt r 16 0 24
    fenceCount := fieldAt r 16 24 8
    lp := fieldAt r 20 0 12
    latScale := fieldAt r 20 12 4
    latCmp := fieldAt r 20 16 8
    trgWidth := fieldAt r 20 24 8
    rows := fieldAt r 24 0 16
    slots := fieldAt r 24 16 5
    reportEntries := 16 * 2 ^ fieldAt r 24 21 4
    reportThreshold := fieldAt r 24 25 3
    irqLevel := fieldAt r 24 28 4
    rowBytes := fieldAt r 28 0 17
    statusPeriod := fieldAt r 28 17 8
    slotBase := valueAt r 32 8
    reportBase := valueAt r 40 8
    msgAddr := valueAt r 48 8
    slotStride := valueAt r 56 4
    msgData := valueAt r 60 4
    speedInterval := fieldAt r 64 0 16
    spdHi := fieldAt r 64 16 16
    spdLo := fieldAt r 68 0 16
    alertMask := BitVec.ofNat 9 (fieldAt r 68 16 9)
    pri := decodePriorities r
    ch := Quad.of (decodeChannel r) }

/-! ## The checks of Table 10-2 -/

/-- Check 1: format version 1 and a profile count of 1 to 4. -/
def headerAcceptable (h : List Byte) : Bool :=
  valueAt h 0 2 == 1 && decide (1 ≤ valueAt h 2 1) && decide (valueAt h 2 1 ≤ 4)

/-- Check 2: the target is below the profile count. -/
def targetCounted (h : List Byte) (target : BitVec 2) : Bool := decide (target.toNat < valueAt h 2 1)

/-- Check 3: the record's 64 words sum to 0 modulo 2^32 (R163). -/
def intact (r : List Byte) : Bool := ((List.range 64).map fun i => valueAt r (4 * i) 4).sum % 2 ^ 32 == 0

/-- The channels the staged profile enables. -/
def Profile.enabledChannels (p : Profile) : List Ch := Ch.all.filter fun c => (p.ch.get c).enable

/-- `f` holds of every enabled channel's parameters (R164). -/
def Profile.eachEnabled (p : Profile) (f : ChanProfile → Bool) : Bool :=
  p.enabledChannels.all fun c => f (p.ch.get c)

/-- `f` holds of every pair of different enabled channels' parameters. -/
def Profile.eachPair (p : Profile) (f : ChanProfile → ChanProfile → Bool) : Bool :=
  p.enabledChannels.all fun c => p.enabledChannels.all fun d =>
    decide (d.num ≤ c.num) || f (p.ch.get c) (p.ch.get d)

/-- The byte ranges [a, b) and [c, d) do not overlap. -/
def apart (a b c d : Nat) : Bool := decide (b ≤ c) || decide (d ≤ a)

/-- The unassigned and zero bits of the common part are 0 (R177). -/
def commonBitsClear (r : List Byte) : Bool :=
  fieldAt r 8 31 1 == 0 && fieldAt r 12 30 2 == 0 && fieldAt r 28 25 7 == 0 && fieldAt r 68 25 7 == 0 &&
    ([3, 7, 11, 15, 19, 23, 27, 31].all fun i => fieldAt r 72 i 1 == 0) && fieldAt r 76 3 29 == 0 &&
    (bytesAt r 80 60).all (· == 0)

/-- The unassigned bits of a channel block are 0 (R177). -/
def blockBitsClear (r : List Byte) (c : Ch) : Bool :=
  fieldAt r (blockAt c + 8) 30 2 == 0 && fieldAt r (blockAt c + 16) 24 8 == 0 && fieldAt r (blockAt c + 24) 29 3 == 0

/-- Codes within their listed values (R177): REPEAT_AVG 0 to 4, SPD_AVG 0 to 5, REPORT_ENTRIES 0 to 8. -/
def codesListed (r : List Byte) : Bool :=
  decide (fieldAt r 12 24 3 ≤ 4) && decide (fieldAt r 12 27 3 ≤ 5) && decide (fieldAt r 24 21 4 ≤ 8)

/-- The common parameters lie in their ranges (check 4; the tables of chapters 1 to 9). -/
def Profile.commonInRange (p : Profile) : Bool :=
  decide (1 ≤ p.reverseLimit) && decide (1 ≤ p.markMin) && decide (1 ≤ p.lExp) &&
    decide (p.lTol + p.markMin ≤ p.lExp) && decide (p.lLo ≤ p.lHi) && decide (1 ≤ p.fenceCount) && decide (1 ≤ p.lp) &&
    decide (1 ≤ p.latCmp) && decide (1 ≤ p.trgWidth) && decide (1 ≤ p.rows) && decide (p.rows ≤ 32768) &&
    decide (1 ≤ p.slots) && decide (p.slots ≤ 16) && decide (1 ≤ p.irqLevel) && decide (p.irqLevel ≤ 8) &&
    decide (64 ≤ p.rowBytes) && decide (p.rowBytes ≤ 65536) && p.rowBytes % 64 == 0 && p.slotBase % 4096 == 0 &&
    p.slotStride % 4096 == 0 && p.reportBase % 32 == 0 && p.msgAddr % 4 == 0 && decide (100 ≤ p.speedInterval) &&
    decide (p.spdLo ≤ p.spdHi)

/-- An enabled channel's parameters lie in their ranges (check 4), SRC_LINES_c and the lower limit of D_c apart. -/
def Profile.channelInRange (p : Profile) (q : ChanProfile) : Bool :=
  decide (2 ≤ q.lineBytes) && decide (q.lineBytes ≤ 65536) && decide (q.lineBytes ≤ q.srcPitch) &&
    decide (q.srcPitch ≤ 1048576) && decide (q.shift ≤ 8) && decide (q.trgPhase < p.lp) &&
    decide (q.apertureEnd ≤ 2 ^ 64)

/-- FORMAT_c has a listed code. -/
def formatListed (r : List Byte) (c : Ch) : Bool := decide (fieldAt r (blockAt c + 8) 24 2 ≤ 2)

/-- Check 4: RANGE. -/
def rangeOk (r : List Byte) (p : Profile) : Bool :=
  commonBitsClear r && codesListed r && p.commonInRange && p.eachEnabled p.channelInRange &&
    p.enabledChannels.all fun c => blockBitsClear r c && formatListed r c

/-- Check 5: RING. -/
def ringOk (q : ChanProfile) : Bool := decide (64 ≤ q.srcLines) && decide (q.srcLines ≤ 16384)

/-- Check 6: FORMAT. -/
def formatOk (q : ChanProfile) : Bool :=
  match q.format with
  | .pass => true
  | .byteExchange => q.sIn == 2
  | .narrow => q.sIn == 2 && q.lineBytes % 2 == 0

/-- Check 7: TRIM. -/
def trimOk (q : ChanProfile) : Bool := decide (q.trimLo < q.trimHi) && decide (q.trimHi ≤ q.lineBytes / q.sIn)

/-- Check 8: STAGGER. -/
def staggerOk (p : Profile) (q : ChanProfile) : Bool := decide (p.settle + 1 ≤ q.stagger)

/-- First byte of the column span in a row (R87). -/
def ChanProfile.spanStart (q : ChanProfile) : Nat := q.colBase * q.sOut

/-- One past the last byte of the column span in a row (R87). -/
def ChanProfile.spanEnd (q : ChanProfile) : Nat := (q.colBase + q.trimHi - q.trimLo) * q.sOut

/-- Check 9: COLUMN_SPAN. -/
def columnSpanOk (p : Profile) (q : ChanProfile) : Bool := decide (q.spanEnd ≤ p.rowBytes)

/-- Check 10: COLUMN_OVERLAP. -/
def columnsApart (p : Profile) : Bool := p.eachPair fun a b => apart a.spanStart a.spanEnd b.spanStart b.spanEnd

/-- Check 11: SLOT_SIZE. -/
def slotSizeOk (p : Profile) : Bool := decide (64 + p.rows * p.rowBytes + 128 ≤ p.slotStride)

/-- Check 12: APERTURE_OVERLAP. -/
def aperturesApart (p : Profile) : Bool := p.eachPair fun a b => apart a.srcBase a.apertureEnd b.srcBase b.apertureEnd

/-- One past the slot region. -/
def Profile.slotsEnd (p : Profile) : Nat := p.slotBase + p.slots * p.slotStride

/-- One past the report ring. -/
def Profile.ringEnd (p : Profile) : Nat := p.reportBase + p.reportEntries * 32

/-- Check 13: REGION_OVERLAP. -/
def regionsApart (p : Profile) : Bool :=
  decide (p.slotsEnd ≤ 2 ^ 64) && decide (p.ringEnd ≤ 2 ^ 64) && apart p.slotBase p.slotsEnd p.reportBase p.ringEnd &&
    p.eachEnabled fun q =>
      apart p.slotBase p.slotsEnd q.srcBase q.apertureEnd && apart p.reportBase p.ringEnd q.srcBase q.apertureEnd

/-- The checks on the parameters, in the order of Table 10-2 from check 4; none when all pass. -/
def Profile.fault (r : List Byte) (p : Profile) : Option Reason :=
  if !rangeOk r p then some .range
  else if !p.eachEnabled ringOk then some .ring
  else if !p.eachEnabled formatOk then some .format
  else if !p.eachEnabled trimOk then some .trim
  else if !p.eachEnabled (staggerOk p) then some .stagger
  else if !p.eachEnabled (columnSpanOk p) then some .columnSpan
  else if !columnsApart p then some .columnOverlap
  else if !slotSizeOk p then some .slotSize
  else if !aperturesApart p then some .apertureOverlap
  else if !regionsApart p then some .regionOverlap
  else none

/-- The judgement of a staging copy (R164): the reason of the first check that fails, or none. With a header that
fails check 1 or 2 the record is not read. -/
def judge (g : Staging) (target : BitVec 2) : Option Reason :=
  if !headerAcceptable g.header then some .version
  else if !targetCounted g.header target then some .range
  else if !intact g.record then some .checksum
  else (decodeProfile g.record).fault g.record

/-! ## The store port (R180) -/

/-- A read of `n` bytes at a store address. -/
def portRead (a n : Nat) : PortRead :=
  { driven := [3, BitVec.ofNat 8 (a / 256), BitVec.ofNat 8 a], count := n }

/-- The first transaction of a load: the store header (R180). -/
def headerRead : PortRead := portRead 0 Config.storeHeaderBytes

/-- The second transaction of a load: the target's record (R180). -/
def recordRead (target : BitVec 2) : PortRead := portRead (64 + 256 * target.toNat) Config.profileRecordBytes

/-- The transactions of a load (R180): the header, and the target's record unless check 1 or 2 fails on the header. -/
def loadTransactions (h : List Byte) (target : BitVec 2) : List PortRead :=
  headerRead :: if headerAcceptable h && targetCounted h target then [recordRead target] else []

/-- The staging copy that a load's transactions fill from the bytes the store answers: the record only when its
transaction is made (R163, R180). -/
def readStore (target : BitVec 2) (header record : List Byte) : Staging :=
  { header := header, record := if recordRead target ∈ loadTransactions header target then record else [] }

/-- Bytes clocked in the transactions of a load (R180). -/
def loadBytesClocked (h : List Byte) (target : BitVec 2) : Nat :=
  ((loadTransactions h target).map fun t => t.driven.length + t.count).sum

end Sys2Proof.Machine
end

