-- ==== Sys2Proof/Machine/Speed.lean ====
section
/-! DEFINITION. The speed unit of the SAU (sections 9.1 and 9.2). -/

namespace Sys2Proof.Machine

/-- An advance is counted into the raw sample while the interval is RUNNING (R153). -/
def countAdvance (s : State) : State :=
  if s.profile.isSome && s.sau.speedT0.isSome then { s with sau := { s.sau with raw := min Config.sat24 (s.sau.raw + 1) } }
  else s

/-- The speed interval has expired (R12, R153). -/
def State.intervalDue (s : State) : Bool :=
  match s.profile, s.sau.speedT0 with
  | some p, some t0 => decide (elapsed s.wpu.time t0 = p.speedInterval)
  | _, _ => false

/-- SPEED_INTERVAL_EXPIRY: the raw sample joins the block, the next interval starts, and with SLOW_SPEED = OFF the
sample is compared (R153, R154, R155). -/
def takeInterval (s : State) : State :=
  s.withProfile fun p s =>
    if s.intervalDue then
      let v := s.sau.raw
      let t := { s with sau := { s.sau with
        raw := 0, blockSum := s.sau.blockSum + v, blockCount := s.sau.blockCount + 1, speedT0 := some s.wpu.time } }
      if p.slowSpeed then t else compareSpeed p v t
    else s

/-- The block count has reached SPD_AVG (R154). -/
def State.blockDue (s : State) : Bool :=
  match s.profile with
  | none => false
  | some p => decide (p.spdAvg ≤ s.sau.blockCount)

/-- SPEED_BLOCK_END: the speed average is formed, and with SLOW_SPEED = ON compared (R154, R155). -/
def takeBlockEnd (s : State) : State :=
  s.withProfile fun p s =>
    if s.blockDue then
      let v := (s.sau.blockSum + p.spdAvg / 2) / p.spdAvg
      let t := { s with sau := { s.sau with speedAvg := v, blockSum := 0, blockCount := 0 } }
      if p.slowSpeed then compareSpeed p v t else t
    else s

/-- At an activation every condition flag except PROFILE_FALLBACK takes its held value when the new ALERT_LATCH is
OFF (R162), in order of flag number: DESIGN CHOICE (log 32). -/
def followConditions (s : State) : State :=
  if s.alertLatch then s
  else
    [Cond.speedHigh, .speedLow, .repeatLong, .repeatShort, .channelFenced].foldl
      (fun t c => deliver c (t.sau.cond.get c) t) s

/-- The SAU at a profile activation (R162). -/
def sauRestart (s : State) : State :=
  let t := { s with sau := { s.sau with speedT0 := some s.wpu.time, raw := 0, blockSum := 0, blockCount := 0 } }
  evalAlert (followConditions (deliver .speedLow false (deliver .speedHigh false t)))

end Sys2Proof.Machine
end

