-- ==== Sys2Proof/Machine/Loader.lean ====
section
/-! DEFINITION. The Profile Loader (chapter 10): requests, the drain, store sharing, activation and refusal. -/

namespace Sys2Proof.Machine

/-- Replaces the PFL state. -/
def State.setPfl (s : State) (f : Pfl) : State := { s with pfl := f }

/-! ## Requests (R169, R170) -/

/-- The number of the active profile, if one is active. -/
def Pfl.activeNumber (f : Pfl) : Option (BitVec 2) := f.active.map (·.number)

/-- A request for the PSEL stable value is formed (R169). -/
def Pfl.requests (f : Pfl) : Bool :=
  f.debounce.isNone && f.refused != some f.pselStable && f.activeNumber != some f.pselStable

/-- The test for a request, made at each debounce expiry and each entry to RUNNING or FALLBACK (R169), with the
cancelling of a drain (R170). -/
def testRequest (s : State) : State :=
  let f := s.pfl
  match f.loader with
  | .running => if f.requests then s.setPfl { f with target := some f.pselStable, loader := .draining } else s
  | .fallback => if f.requests then s.setPfl { f with target := some f.pselStable, loader := .awaitingStore } else s
  | .draining =>
    if f.activeNumber = some f.pselStable then s.setPfl { f with target := none, loader := .running }
    else if f.requests then s.setPfl { f with target := some f.pselStable }
    else s
  | .loadingInitial | .awaitingStore | .loading => s

/-- The debounce interval has expired (R12, R168). -/
def State.debounceDue (s : State) : Bool :=
  match s.pfl.debounce with
  | none => false
  | some t0 => decide (elapsed s.wpu.time t0 = Config.debounceTime)

/-- PSEL_DEBOUNCE_EXPIRY: the stable value takes the PSEL value, the debounce is IDLE, and a request is tested (R168,
R169). -/
def takeDebounce (s : State) : State :=
  if s.debounceDue then testRequest (s.setPfl { s.pfl with pselStable := s.pins.psel, debounce := none }) else s

/-! ## The drain (R170) -/

/-- The context is FILLING with disposition PLACED. -/
def Lnb.placing (l : Lnb) : Bool :=
  match l.ctx with
  | none => false
  | some n =>
    match n.disp with
    | .placed _ _ _ => true
    | .refused _ => false

/-- The drain has ended: DRAINING with the frame table empty and no PLACED context (R170). -/
def State.drainDue (s : State) : Bool :=
  s.pfl.loader == .draining && s.frt.entries.isEmpty && Ch.all.all fun c => !(s.lnb.get c).placing

/-- DRAIN_END: the loader enters AWAITING_STORE (R170). -/
def takeDrainEnd (s : State) : State := if s.drainDue then s.setPfl { s.pfl with loader := .awaitingStore } else s

/-! ## Store sharing (R171, R172) -/

/-- The owner becomes PROGRAMMER and SGNT goes active (R171). -/
def grantStore (s : State) : State := s.setPfl { s.pfl with owner := .programmer, sgnt := true }

/-- A FREE store with SREQ active is granted (R171). -/
def State.grantDue (s : State) : Bool := s.pfl.owner == .free && s.pins.sreq

/-- STORE_GRANT (R171). -/
def takeGrant (s : State) : State := if s.grantDue then grantStore s else s

/-- A FREE store in AWAITING_STORE is the loader's (R171). -/
def State.loadDue (s : State) : Bool := s.pfl.owner == .free && s.pfl.loader == .awaitingStore

/-- LOADING_START: the loader takes the store, enters LOADING and begins the read's first transaction (R171, R172,
R180). -/
def takeLoadingStart (s : State) : State :=
  if s.loadDue then
    s.setPfl { s.pfl with owner := .loader, loader := .loading, staging := none, transaction := some headerRead }
  else s

/-- What the part does to the store port's outputs: high-impedance unless the loader owns the store, then driven, with
SCS active while a transaction is in progress (R180). The edges of SCK and SDO are left out (log 28). -/
def State.portDrive (s : State) : PortDrive :=
  match s.pfl.owner with
  | .loader =>
    match s.pfl.transaction with
    | none => .idle
    | some t => .transaction t
  | .programmer | .free => .highImpedance

/-! ## Activation and refusal (R165, R166, R173, R174) -/

/-- The resets that an activation and a refusal share, made with the parameters `p` of the profile then active
(R34, R51, R75). -/
def restartBlocks (p : Profile) (s : State) : State :=
  lnbRestart p ((mktRestart p s).forChannels (tgnRestart p))

/-- The staged profile, acceptable, becomes active as profile `n` and the blocks take the activation (R173). -/
def activate (n : BitVec 2) (p : Profile) (refused : Option (BitVec 2)) (s : State) : State :=
  let t := s.setPfl
    { s.pfl with active := some { number := n, prof := p }, target := none, refused := refused, loader := .running,
                 staging := none }
  let u := restartBlocks p t
  sauRestart (clearFolding { u with frt := { u.frt with slotPtr := 0 } })

/-- The loader enters FALLBACK, the store FREE, PROFILE_FALLBACK holding (R166), and tests for a request (R169). -/
def enterFallback (s : State) : State :=
  testRequest (deliver .profileFallback true
    (s.setPfl { s.pfl with loader := .fallback, target := none, staging := none, owner := .free }))

/-- A load outside LOADING_INITIAL ends acceptable (R173): activation, PROFILE_FALLBACK no longer holding when it ended
FALLBACK, PROFILE report, test for a request. -/
def loadAccepted (n : BitVec 2) (p : Profile) (s : State) : State :=
  let t := activate n p none s
  let u := if s.pfl.active.isNone then deliver .profileFallback false t else t
  testRequest (raiseReport (.profile true n n none) u)

/-- A load outside LOADING_INITIAL is refused (R174): with a profile active it is kept and the blocks are reset under
it; with none the loader returns to FALLBACK (R166). -/
def loadRefused (n : BitVec 2) (why : Reason) (s : State) : State :=
  let t := s.setPfl { s.pfl with refused := some n, target := none, staging := none, loader := .running }
  match s.pfl.active with
  | none => enterFallback t
  | some a =>
    testRequest (raiseReport (.profile false n a.number (some why)) (clearFolding (restartBlocks a.prof t)))

/-- The end of a read outside LOADING_INITIAL: the store is FREE (R171), then the judgement (R164). -/
def finishLoad (n : BitVec 2) (s : State) : State :=
  let t := s.setPfl { s.pfl with owner := .free }
  match s.pfl.staging with
  | none => t
  | some g =>
    match judge g n with
    | none => loadAccepted n (decodeProfile g.record) t
    | some why => loadRefused n why t

/-- The end of LOADING_INITIAL with profile `n` active: the store is FREE, the START report is raised (R167), the
grabber link is released (R133), a request is tested (R169). -/
def startUpDone (n : BitVec 2) (s : State) : State :=
  testRequest (refreshFlow (releaseGrabber
    (raiseReport (.start s.pfl.startCause n s.pfl.firstReason) (s.setPfl { s.pfl with owner := .free }))))

/-- The end of a read of the start-up load (R165, Table 10-4): activation; or the second read, of profile 0; or
FALLBACK. A second read is one after a first refusal reason has been recorded; the refused value it holds is kept
(log 9). -/
def finishStartUp (n : BitVec 2) (s : State) : State :=
  match s.pfl.staging with
  | none => s
  | some g =>
    match judge g n with
    | none =>
      let kept := if s.pfl.firstReason.isSome then s.pfl.refused else none
      startUpDone n (activate n (decodeProfile g.record) kept s)
    | some why =>
      if s.pfl.firstReason.isSome then refreshFlow (releaseGrabber (enterFallback s))
      else
        let t := s.setPfl { s.pfl with firstReason := some why, refused := some n, staging := none }
        if n = 0 then refreshFlow (releaseGrabber (enterFallback t))
        else t.setPfl { t.pfl with target := some 0, transaction := some headerRead }

/-- LOAD_READ_END: the read's last transaction has ended and the staging copy holds the bytes read; it is judged and
the load ends (R163, R164, R165, R180). In any state but LOADING_INITIAL and LOADING there is no read to end, and SDI is
ignored. -/
def takeReadEnd (header record : List Byte) (s : State) : State :=
  match s.pfl.target with
  | none => s
  | some n =>
    let t := s.setPfl { s.pfl with staging := some (readStore n header record), transaction := none }
    match s.pfl.loader with
    | .loadingInitial => finishStartUp n t
    | .loading => finishLoad n t
    | .running | .draining | .awaitingStore | .fallback => s

end Sys2Proof.Machine
end

