-- ==== Sys2Proof/Machine/Position.lean ====
section
/-! DEFINITION. The Web Position Unit (chapter 1): classifying a transition, the advance and its delivery to the
blocks, returns, reverse travel, deep reversals and encoder errors. -/

namespace Sys2Proof.Machine

/-- The class of an observed pair against the reference (R2). -/
inductive Transition where
  | same | forward | reverse | error
deriving DecidableEq, Repr

/-- The place of a pair (ENCA, ENCB) in the cycle (0,0), (1,0), (1,1), (0,1) (section 1.1). -/
def pairIndex : Bool × Bool → Nat
  | (false, false) => 0
  | (true, false) => 1
  | (true, true) => 2
  | (false, true) => 3

/-- Table 1-2 with ENC_SENSE, INVERTED when the flag is true (R2). -/
def classifyPair (inverted : Bool) (reference observed : Bool × Bool) : Transition :=
  match (pairIndex observed + 4 - pairIndex reference) % 4 with
  | 0 => .same
  | 1 => if inverted then .reverse else .forward
  | 2 => .error
  | _ => if inverted then .forward else .reverse

/-- ENC_SENSE in force is INVERTED: the active profile's, NORMAL while none is active (R9). -/
def State.encInverted (s : State) : Bool :=
  match s.profile with
  | none => false
  | some p => p.encInverted

/-- The WPU's own part of an advance: WPOS one on, WMAX with it, the deep-reversal flag CLEAR (R3). -/
def Wpu.advance (w : Wpu) : Wpu := { w with wpos := w.wpos + 1, wmax := w.wpos + 1, deepDelivered := false }

/-- The advance delivered to the blocks: MKT, TGN's countdowns, SAU, FRT (R3; their order, log 1). What it makes due
in the MKT, TGN and LNB is left for its own row (log 2). -/
def deliverAdvance (s : State) : State := evaluateAll (countAdvance ((mktAdvance s).forChannels countDown))

/-- A forward transition: an advance at depth 0 (R3), else a return (R4). -/
def takeForward (s : State) : State :=
  if s.wpu.depth = 0 then deliverAdvance { s with wpu := s.wpu.advance }
  else { s with wpu := { s.wpu with wpos := s.wpu.wpos + 1, depth := s.wpu.depth - 1 } }

/-- The WPU's own part of a reverse transition: WPOS one back, the depth one up to its maximum (R5), the deepest
backlash with it, saturating (R6). -/
def Wpu.reverse (w : Wpu) : Wpu :=
  if w.depth = Config.maxDepth then w
  else { w with wpos := w.wpos - 1, depth := w.depth + 1, deepest := min Config.sat24 (max w.deepest (w.depth + 1)) }

/-- A deep reversal is delivered at this reverse transition: a profile is active, the depth has been raised above its
REVERSE_LIMIT, and the flag is CLEAR (R7). A depth that was above the limit before counts as raised above it: DESIGN
CHOICE (log 31). -/
def State.deepDue (s : State) : Bool :=
  match s.profile with
  | none => false
  | some p =>
    decide (s.wpu.depth ≠ Config.maxDepth) && !s.wpu.deepDelivered && decide (p.reverseLimit < s.wpu.depth + 1)

/-- A reverse transition (R5, R6, R7). -/
def takeReverse (s : State) : State :=
  let t := { s with wpu := s.wpu.reverse }
  if s.deepDue then mktDeepReversal { t with wpu := { t.wpu with deepDelivered := true } } else t

/-- An encoder error: counted, and the ENCODER event raised (R8). -/
def takeEncoderError (s : State) : State :=
  raiseFlag .encoder { s with wpu := { s.wpu with encErrors := satInc Config.sat16 s.wpu.encErrors } }

/-- An observed pair: it becomes the reference whatever its class, and its class is acted on (R1, R2). The first pair
after a reset is not counted. -/
def observePair (pair : Bool × Bool) (s : State) : State :=
  let t := { s with wpu := { s.wpu with encRef := some pair } }
  match s.wpu.encRef with
  | none => t
  | some r =>
    match classifyPair s.encInverted r pair with
    | .same => s
    | .forward => takeForward t
    | .reverse => takeReverse t
    | .error => takeEncoderError t

end Sys2Proof.Machine
end

