-- ==== Sys2Proof/Machine/Settle.lean ====
section
/-! DEFINITION. The part's own pace: the events that are due are taken (log 2), one microsecond passes (R11, log 4),
CLEAR is sampled (R159), and a reset sets every block and ends (R14, R165). -/

namespace Sys2Proof.Machine

/-! ## STATUS events (R147, R148) -/

/-- STATUS_EVENT: an event that a closure has made due clears the folding flags and goes to the queue (R148). -/
def takeStatus (s : State) : State :=
  if s.rpu.statusDue = 0 then s
  else raiseReport .status (clearFolding { s with rpu := { s.rpu with statusDue := s.rpu.statusDue - 1 } })

/-! ## Everything that is due (log 2) -/

/-- TGN and LNB events that are due on channel `c`. -/
def settleChannel (c : Ch) (s : State) : State :=
  takePulseEnd c (takeFence c (takeStall c (takeFire c (takeLatency c s))))

/-- Every event that is due is taken, in one order: MKT, each channel, SAU, PSEL debounce, STATUS, loader and store,
and last the report writer, which forms a group as soon as it can (log 2). -/
def settle (s : State) : State :=
  let t := (takeWindow (takeQualifies s)).forChannels settleChannel
  let u := takeDebounce (takeBlockEnd (takeInterval t))
  formReportGroup (takeLoadingStart (takeGrant (takeDrainEnd (repeatTimes takeStatus u.rpu.statusDue u))))

/-! ## CLEAR (R159) -/

/-- The effects of a CLEAR pulse, the reference apart (R159). -/
def takeClearPulse (s : State) : State :=
  exitFences (evalAlert { s with sau := { s.sau with flags := s.clearedFlags } })

/-- CLEAR is sampled: a pulse is taken at a sample that finds it active with the reference INACTIVE, and the reference
takes the level (R159). -/
def sampleClear (active : Bool) (s : State) : State :=
  let t := { s with sau := { s.sau with clearRef := active } }
  if active && !s.sau.clearRef then takeClearPulse t else t

/-! ## One microsecond (log 4) -/

/-- TIME increases by one (R11). -/
def State.addMicrosecond (s : State) : State := { s with wpu := { s.wpu with time := s.wpu.time + 1 } }

/-- One microsecond: what is due is taken, TIME increases by one, and CLEAR is sampled at the increment. While a reset
is held TIME stays 0 (R14). CLEAR is taken first, and what falls due at the new TIME after it, where R159 lets either be
first: DESIGN CHOICE, unsafe (log 37). -/
def tick (s : State) : State :=
  if s.inReset then s
  else
    let t := (settle s).addMicrosecond
    sampleClear t.pins.clear t

/-! ## Resets (R14, R33, R50, R74, R120, R133, R150, R161, R165, R175) -/

/-- The start cause that a reset-pin reset leaves to be recorded: POWER_ON while the power-on reset is still held,
else RESET_PIN (R165, log 19). -/
def State.pinResetCause (s : State) : StartCause :=
  if s.inReset ∧ s.pfl.startCause = .powerOn then .powerOn else .resetPin

/-- A reset of the given cause: every block at its reset values; the input lines stay as they are. -/
def resetBlocks (cause : StartCause) (s : State) : State := .held s.pins s.frt.held cause s.pending

/-- The end of a reset: the encoder pair becomes the reference (R1, R14), and PSEL is sampled as the stable value and
the target of the start-up load, whose first transaction begins (R165, R180, log 27). -/
def endReset (s : State) : State :=
  if s.inReset then
    { s with
      inReset := false
      wpu := { s.wpu with encRef := some (s.pins.encA, s.pins.encB) }
      pfl := { s.pfl with
        pselStable := s.pins.psel, target := some s.pins.psel, transaction := some headerRead } }
  else s

/-! ## When a command acts -/

/-- A command that is one of the part's own events: nothing while a reset is held (R14, log 5). -/
def live (f : State → State) (s : State) : State := if s.inReset then s else f s

/-- A command from outside: what is due is taken before it (log 2); nothing while a reset is held. -/
def outside (f : State → State) (s : State) : State := if s.inReset then s else f (settle s)

end Sys2Proof.Machine
end

