-- ==== Sys2Proof/WellFormed.lean ====
section
/-! DEFINITION. Which commands are well formed. Only two rows carry data whose shape the spec bounds: a grabber
request (R123) and the bytes of a load (R163). -/

namespace Sys2Proof

/-- A grabber request as R123 bounds it: 1 to 4,096 bytes, and not a configuration request. A memory write carries
all its bytes and does not cross a 4 KiB boundary; a read carries none; a completion or message no more than its
length. -/
def Request.fromGrabber (r : Request) : Bool :=
  decide (1 ≤ r.len) && decide (r.len ≤ Config.pageBytes) &&
    match r.kind with
    | .memWrite =>
      decide (r.data.length = r.len) && decide (r.addr.toNat % Config.pageBytes + r.len ≤ Config.pageBytes)
    | .memRead => decide (r.data = [])
    | .completion => decide (r.data.length ≤ r.len)
    | .message => decide (r.data.length ≤ r.len)
    | .config => false

/-- The bytes of a load: a 64-byte store header and a 256-byte profile record (R163). -/
def loadBytesWellFormed (header record : List Byte) : Bool :=
  decide (header.length = Config.storeHeaderBytes) && decide (record.length = Config.profileRecordBytes)

/-- The command is one that its row admits. -/
def Instr.wellFormed : Instr → Bool
  | .grabberRequestAccept req => req.fromGrabber
  | .loadReadEnd header record => loadBytesWellFormed header record
  | .powerOn | .resetPin | .resetEnd | .encoderTransition _ _ _ | .markChange _ | .candidateQualifies
  | .windowRunsOut | .fire _ | .triggerPulseEnd _ | .latencyExpiry _ | .stall _ | .holdChange _
  | .pieceAdmission | .passThroughAdmission | .fence _ | .frameItemAdmission | .reportGroupForm
  | .reportRecordAdmission | .messageInterrupt | .statusEvent | .egressSend | .downstreamRequest _
  | .downstreamSend | .hostLinkFirstUp | .hostLinkReset | .hostLinkReturn | .grabberLinkTrained
  | .grabberLinkLoss | .speedIntervalExpiry | .speedBlockEnd | .clearPulse _ | .pselChange _
  | .pselDebounceExpiry | .drainEnd | .sreqAssert | .sreqRelease | .storeGrant | .loadingStart => true

end Sys2Proof
end

