-- ==== Sys2Proof/Machine/Commands.lean ====
section
/-! DEFINITION. The meaning of each command: one definition for each row of spec/opcode_table.json, over the shared
operations of the other files. -/

namespace Sys2Proof.Machine

/-- What a command answers. -/
abbrev Answer := Host.Outcome State Fault Refusal

/-! ## Resets -/

/-- POWER_ON: power is applied; every block takes its reset values and the reset is held (R14). -/
def execPowerOn (s : State) : Answer := .next (resetBlocks .powerOn s)

/-- RESET_PIN: RST_N goes active; every block takes its reset values and the reset is held (R14). -/
def execResetPin (s : State) : Answer := .next (resetBlocks s.pinResetCause s)

/-- RESET_END: the reset ends (R14, R165). -/
def execResetEnd (s : State) : Answer := .next (endReset s)

/-! ## Encoder, MARK, HOLD -/

/-- The encoder and RDY lines take new levels (R1, R38, log 11). -/
def State.setEncoderPins (s : State) (a b : Bool) (rdy : Quad Bool) : State :=
  { s with pins := { s.pins with encA := a, encB := b, rdy := rdy } }

/-- ENCODER_TRANSITION: an observed pair, compared with the reference and acted on (R1). While a reset is held the
levels are not observed, only kept. -/
def execEncoderTransition (a b : Bool) (rdy : Quad Bool) (s : State) : Answer :=
  .next (if s.inReset then s.setEncoderPins a b rdy
    else observePair (a, b) ((settle s).setEncoderPins a b rdy))

/-- MARK takes a new level; while the backlash depth is above 0 the MARK reference follows at once (R16). -/
def observeMark (level : Bool) (s : State) : State :=
  if s.pins.mark = level then s
  else
    let t := { s with pins := { s.pins with mark := level } }
    if s.wpu.depth = 0 then t else t.setMkt { t.mkt with markRef := t.markActive level }

/-- MARK_CHANGE (R16). While a reset is held the level is only kept. -/
def execMarkChange (level : Bool) (s : State) : Answer :=
  .next (if s.inReset then { s with pins := { s.pins with mark := level } } else observeMark level (settle s))

/-- CANDIDATE_QUALIFIES (R19, R20, R22). -/
def execCandidateQualifies (s : State) : Answer := .next (live takeQualifies s)

/-- WINDOW_RUNS_OUT (R23, R24, R25). -/
def execWindowRunsOut (s : State) : Answer := .next (live takeWindow s)

/-- The hold state follows HOLD (R101). -/
def State.setHold (s : State) (active : Bool) : State := { s with frt := { s.frt with held := active } }

/-- HOLD_CHANGE (R101); while a reset is held the hold state follows the input too (R120). -/
def execHoldChange (active : Bool) (s : State) : Answer :=
  .next (if s.inReset then s.setHold active else (settle s).setHold active)

/-! ## Triggers and lines -/

/-- FIRE of a channel (R36 to R39). -/
def execFire (c : Ch) (s : State) : Answer := .next (live (takeFire c) s)

/-- TRIGGER_PULSE_END of a channel (R40). -/
def execTriggerPulseEnd (c : Ch) (s : State) : Answer := .next (live (takePulseEnd c) s)

/-- LATENCY_EXPIRY of a channel (R45). -/
def execLatencyExpiry (c : Ch) (s : State) : Answer := .next (live (takeLatency c) s)

/-- STALL of a channel (R62). -/
def execStall (c : Ch) (s : State) : Answer := .next (live (takeStall c) s)

/-- FENCE of a channel (R69). -/
def execFence (c : Ch) (s : State) : Answer := .next (live (takeFence c) s)

/-! ## The upstream path -/

/-- GRABBER_REQUEST_ACCEPT (R124). A request that R123 says the grabber never sends is refused (log 20). -/
def execGrabberRequestAccept (r : Request) (s : State) : Answer :=
  if r.fromGrabber then .next (outside (acceptRequest r) s) else .refused .malformedGrabberRequest

/-- PIECE_ADMISSION (R127). -/
def execPieceAdmission (s : State) : Answer := .next (outside admitPiece s)

/-- PASS_THROUGH_ADMISSION (R129). -/
def execPassThroughAdmission (s : State) : Answer := .next (outside admitPass s)

/-- FRAME_ITEM_ADMISSION (R126). -/
def execFrameItemAdmission (s : State) : Answer := .next (outside admitFrameItem s)

/-- REPORT_GROUP_FORM (R144). -/
def execReportGroupForm (s : State) : Answer := .next (live formReportGroup s)

/-- REPORT_RECORD_ADMISSION (R145). -/
def execReportRecordAdmission (s : State) : Answer := .next (outside admitRecord s)

/-- MESSAGE_INTERRUPT (R146). -/
def execMessageInterrupt (s : State) : Answer := .next (outside admitMessage s)

/-- STATUS_EVENT (R147, R148). -/
def execStatusEvent (s : State) : Answer := .next (live takeStatus s)

/-- EGRESS_SEND (R125). -/
def execEgressSend (s : State) : Answer := .next (outside sendEgress s)

/-- DOWNSTREAM_REQUEST (R130). -/
def execDownstreamRequest (r : Request) (s : State) : Answer := .next (outside (takeDownstream r) s)

/-- DOWNSTREAM_SEND (R130). -/
def execDownstreamSend (s : State) : Answer := .next (outside sendDownstream s)

/-! ## Links -/

/-- The host link comes UP for the first time since the reset (R133); nothing when it has been UP (log 16). -/
def hostFirstUp (s : State) : State := if s.egu.hostUp || s.egu.hostRisen then s else hostLinkUp s

/-- HOST_LINK_FIRST_UP (R133). -/
def execHostLinkFirstUp (s : State) : Answer := .next (outside hostFirstUp s)

/-- A host-link reset; nothing when the link is DOWN (R134). -/
def hostReset (s : State) : State := if s.egu.hostUp then linkReset s else s

/-- HOST_LINK_RESET (R134). -/
def execHostLinkReset (s : State) : Answer := .next (outside hostReset s)

/-- The host link returns after a host-link reset (R136); nothing when it is UP or has not been UP yet (log 16). -/
def hostReturn (s : State) : State := if !s.egu.hostUp && s.egu.hostRisen then hostLinkUp s else s

/-- HOST_LINK_RETURN (R136). -/
def execHostLinkReturn (s : State) : Answer := .next (outside hostReturn s)

/-- GRABBER_LINK_TRAINED (R128). -/
def execGrabberLinkTrained (s : State) : Answer := .next (outside grabberTrained s)

/-- GRABBER_LINK_LOSS (R137). -/
def execGrabberLinkLoss (s : State) : Answer := .next (outside grabberLost s)

/-! ## Speed and CLEAR -/

/-- SPEED_INTERVAL_EXPIRY (R154). -/
def execSpeedIntervalExpiry (s : State) : Answer := .next (live takeInterval s)

/-- SPEED_BLOCK_END (R154). -/
def execSpeedBlockEnd (s : State) : Answer := .next (live takeBlockEnd s)

/-- The CLEAR line takes a level. -/
def State.setClearPin (s : State) (active : Bool) : State := { s with pins := { s.pins with clear := active } }

/-- CLEAR_PULSE: an increment of TIME whose sample finds CLEAR at the level given (R159, log 10). While a reset is held
the level is only kept. -/
def execClearPulse (active : Bool) (s : State) : Answer := .next (tick (s.setClearPin active))

/-! ## Profiles and the store -/

/-- A change of PSEL: the debounce starts anew and the refused value becomes NONE (R168). A value equal to the lines'
is no change. -/
def observePsel (v : BitVec 2) (s : State) : State :=
  if s.pins.psel = v then s
  else { s with
    pins := { s.pins with psel := v }
    pfl := { s.pfl with debounce := some s.wpu.time, refused := none } }

/-- PSEL_CHANGE (R168). While a reset is held the value is only kept. -/
def execPselChange (v : BitVec 2) (s : State) : Answer :=
  .next (if s.inReset then { s with pins := { s.pins with psel := v } } else observePsel v (settle s))

/-- PSEL_DEBOUNCE_EXPIRY (R168). -/
def execPselDebounceExpiry (s : State) : Answer := .next (live takeDebounce s)

/-- DRAIN_END (R170). -/
def execDrainEnd (s : State) : Answer := .next (live takeDrainEnd s)

/-- The SREQ line takes a level. -/
def State.setSreqPin (s : State) (active : Bool) : State := { s with pins := { s.pins with sreq := active } }

/-- SREQ goes active: a FREE store is granted (R171). -/
def assertSreq (s : State) : State :=
  if s.pins.sreq then s
  else
    let t := s.setSreqPin true
    if t.pfl.owner = .free then grantStore t else t

/-- SREQ_ASSERT (R171). While a reset is held the level is only kept. -/
def execSreqAssert (s : State) : Answer :=
  .next (if s.inReset then s.setSreqPin true else assertSreq (settle s))

/-- SREQ goes inactive: a PROGRAMMER's store becomes FREE and SGNT inactive (R171). -/
def releaseSreq (s : State) : State :=
  if s.pins.sreq then
    let t := s.setSreqPin false
    if t.pfl.owner = .programmer then t.setPfl { t.pfl with owner := .free, sgnt := false } else t
  else s

/-- SREQ_RELEASE (R171). While a reset is held the level is only kept. -/
def execSreqRelease (s : State) : Answer :=
  .next (if s.inReset then s.setSreqPin false else releaseSreq (settle s))

/-- STORE_GRANT (R171). -/
def execStoreGrant (s : State) : Answer := .next (live takeGrant s)

/-- LOADING_START (R171, R172). -/
def execLoadingStart (s : State) : Answer := .next (live takeLoadingStart s)

/-- LOAD_READ_END (R163 to R166, R173, R174). -/
def execLoadReadEnd (header record : List Byte) (s : State) : Answer :=
  .next (outside (takeReadEnd header record) s)

end Sys2Proof.Machine
end

