-- ==== Sys2Proof/Machine/Dispatch.lean ====
section
/-! DEFINITION. exec: one arm for each command, each a direct call of its meaning. -/

namespace Sys2Proof.Machine

def exec (i : Instr) (s : State) : Host.Outcome State Fault Refusal :=
  match i with
  | .powerOn => Sys2Proof.Machine.execPowerOn s
  | .resetPin => Sys2Proof.Machine.execResetPin s
  | .resetEnd => Sys2Proof.Machine.execResetEnd s
  | .encoderTransition a b rdy => Sys2Proof.Machine.execEncoderTransition a b rdy s
  | .markChange l => Sys2Proof.Machine.execMarkChange l s
  | .candidateQualifies => Sys2Proof.Machine.execCandidateQualifies s
  | .windowRunsOut => Sys2Proof.Machine.execWindowRunsOut s
  | .fire c => Sys2Proof.Machine.execFire c s
  | .triggerPulseEnd c => Sys2Proof.Machine.execTriggerPulseEnd c s
  | .latencyExpiry c => Sys2Proof.Machine.execLatencyExpiry c s
  | .stall c => Sys2Proof.Machine.execStall c s
  | .holdChange l => Sys2Proof.Machine.execHoldChange l s
  | .grabberRequestAccept r => Sys2Proof.Machine.execGrabberRequestAccept r s
  | .pieceAdmission => Sys2Proof.Machine.execPieceAdmission s
  | .passThroughAdmission => Sys2Proof.Machine.execPassThroughAdmission s
  | .fence c => Sys2Proof.Machine.execFence c s
  | .frameItemAdmission => Sys2Proof.Machine.execFrameItemAdmission s
  | .reportGroupForm => Sys2Proof.Machine.execReportGroupForm s
  | .reportRecordAdmission => Sys2Proof.Machine.execReportRecordAdmission s
  | .messageInterrupt => Sys2Proof.Machine.execMessageInterrupt s
  | .statusEvent => Sys2Proof.Machine.execStatusEvent s
  | .egressSend => Sys2Proof.Machine.execEgressSend s
  | .downstreamRequest r => Sys2Proof.Machine.execDownstreamRequest r s
  | .downstreamSend => Sys2Proof.Machine.execDownstreamSend s
  | .hostLinkFirstUp => Sys2Proof.Machine.execHostLinkFirstUp s
  | .hostLinkReset => Sys2Proof.Machine.execHostLinkReset s
  | .hostLinkReturn => Sys2Proof.Machine.execHostLinkReturn s
  | .grabberLinkTrained => Sys2Proof.Machine.execGrabberLinkTrained s
  | .grabberLinkLoss => Sys2Proof.Machine.execGrabberLinkLoss s
  | .speedIntervalExpiry => Sys2Proof.Machine.execSpeedIntervalExpiry s
  | .speedBlockEnd => Sys2Proof.Machine.execSpeedBlockEnd s
  | .clearPulse l => Sys2Proof.Machine.execClearPulse l s
  | .pselChange v => Sys2Proof.Machine.execPselChange v s
  | .pselDebounceExpiry => Sys2Proof.Machine.execPselDebounceExpiry s
  | .drainEnd => Sys2Proof.Machine.execDrainEnd s
  | .sreqAssert => Sys2Proof.Machine.execSreqAssert s
  | .sreqRelease => Sys2Proof.Machine.execSreqRelease s
  | .storeGrant => Sys2Proof.Machine.execStoreGrant s
  | .loadingStart => Sys2Proof.Machine.execLoadingStart s
  | .loadReadEnd h r => Sys2Proof.Machine.execLoadReadEnd h r s

end Sys2Proof.Machine
end

