-- ==== Sys2Proof/Safety.lean ====
section
/-! DEFINITION. What a safe run is: the outcome of a safe step, the state in which nothing is due, and the invariants
that the rules state of every block. -/

namespace Sys2Proof.Machine

/-! ## Outcomes -/

/-- The step went on: it neither faulted nor refused. -/
def Proceeds (o : Host.Outcome State Fault Refusal) : Prop := ∃ t, o = .next t

/-! ## Nothing due -/

/-- The report writer can take the head report (R144). -/
def State.formDue (s : State) : Bool :=
  s.profile.isSome && s.rpu.writer.isNone && !s.rpu.queue.isEmpty && s.egu.hostUp

/-- Nothing of channel `c` is due in the TGN and the LNB. -/
def State.channelQuiet (s : State) (c : Ch) : Bool :=
  !s.latencyDue c && !s.fireDue c && !s.stallDue c && !s.fenceDue c && !s.pulseDue c

/-- No event is due that the part takes of itself (log 2). -/
def State.quiet (s : State) : Bool :=
  !s.qualifiesDue && !s.windowDue && (Ch.all.all fun c => s.channelQuiet c) && !s.intervalDue && !s.blockDue &&
    !s.debounceDue && s.rpu.statusDue == 0 && !s.drainDue && !s.grantDue && !s.loadDue && !s.formDue

/-- No reset is held and nothing is due: a command from outside acts at once. -/
def State.ready (s : State) : Bool := !s.inReset && s.quiet

/-! ## Invariants -/

/-- WPU: the backlash depth is the signed distance from WPOS to WMAX, within its range (Table 1-1, R5). -/
def PositionInv (s : State) : Prop :=
  sdist s.wpu.wpos s.wpu.wmax = (s.wpu.depth : Int) ∧ s.wpu.depth ≤ Config.maxDepth

/-- MKT: in SEARCH there is no newest mark, no length, no coasting and no deferred expiry (R20, R25, R27, R33); locked
or coasting there is a newest mark (Table 2-1); the state is COASTING only while the coasting count is 1 or more
(R24); the history holds at most 16 lengths (R27). -/
def LockInv (s : State) : Prop :=
  (s.mkt.lock = .search →
    s.mkt.newest = none ∧ s.mkt.history = [] ∧ s.mkt.coasting = 0 ∧ s.mkt.deferred = false) ∧
    (s.mkt.lock ≠ .search → s.mkt.newest.isSome) ∧
    (s.mkt.lock = .coasting ↔ 1 ≤ s.mkt.coasting) ∧
    s.mkt.history.length ≤ Config.historyCapacity

/-- TGN: a PTQ never holds more than 32 records, and its records have consecutive sequence numbers from head to tail,
the last one lower by one than the counter (R39, R43). -/
def TriggerQueueInv (s : State) : Prop :=
  ∀ c, (s.tgn.get c).ptq.length ≤ Config.ptqCapacity ∧
    ∀ i r, (s.tgn.get c).ptq[i]? = some r →
      r.seq + BitVec.ofNat 32 ((s.tgn.get c).ptq.length - i) = (s.tgn.get c).seq

/-- FRT: no two entries hold the same slot, only the newest can be OPEN, and the table holds at most 16 entries, in
slots below 16 (R97; the profile's SLOTS is at most 16). -/
def FrameTableInv (s : State) : Prop :=
  (s.frt.entries.map (·.slot)).Nodup ∧ (∀ e ∈ s.frt.entries.dropLast, e.fin.isSome) ∧
    (∀ e ∈ s.frt.entries, e.slot < 16) ∧ s.frt.entries.length ≤ 16 ∧
    ∀ a, s.pfl.active = some a → a.prof.slots ≤ 16

/-- EGU: the egress queue holds at most 64 entries, the downstream queue at most 32 requests (R125, R130), and the
request in progress at most 4,096 bytes (R123). -/
def EgressInv (s : State) : Prop :=
  s.egu.egress.length ≤ Config.egressCapacity ∧ s.egu.downstream.length ≤ Config.downstreamCapacity ∧
    ∀ g, s.egu.ingress = some g → g.data.length ≤ Config.pageBytes

/-- EGU: the flow control is OPEN exactly under the conditions of R128; the grabber link is RUNNING exactly while the
host link is UP and LOADING_INITIAL has been left (R133, R134, R136); only a RUNNING link is trained; and while the
host link is DOWN no request is held (R133, R134). -/
def LinkInv (s : State) : Prop :=
  s.egu.flowOpen = s.flowMayOpen ∧
    s.egu.grabberRunning = (s.egu.hostUp && s.pfl.loader != .loadingInitial) ∧
    (s.egu.trained = true → s.egu.grabberRunning = true) ∧
    (s.egu.hostUp = true → s.egu.hostRisen = true) ∧
    (s.egu.hostUp = false → s.egu.egress = [] ∧ s.egu.ingress = none ∧ s.egu.downstream = [])

/-- RPU: the report queue holds at most 16 reports in order of priority, highest first (R141), and the dropped count
stays within its range (Table 8-1). -/
def ReportQueueInv (s : State) : Prop :=
  s.rpu.queue.length ≤ Config.reportCapacity ∧ s.rpu.queue.Pairwise (fun a b => b.priority ≤ a.priority) ∧
    s.rpu.dropped ≤ Config.sat16

/-- SAU: ALERT is active exactly while a flag that is in ALERT_MASK is SET (R160). -/
def AlertInv (s : State) : Prop := s.sau.alert = s.alertDue

/-- PFL: SGNT is active exactly while the programmer owns the store; while the loader reads it owns it (R165, R171,
R172); and a transaction of the store port is in progress exactly while it reads, a held reset apart (R180). -/
def StoreInv (s : State) : Prop :=
  (s.pfl.sgnt = true ↔ s.pfl.owner = .programmer) ∧
    (s.pfl.loader = .loadingInitial ∨ s.pfl.loader = .loading → s.pfl.owner = .loader) ∧
    (s.pfl.transaction.isSome ↔
      s.inReset = false ∧ (s.pfl.loader = .loadingInitial ∨ s.pfl.loader = .loading)) ∧
    (s.inReset = true → s.pfl.loader = .loadingInitial)

/-- While a reset is held every block stands at its reset values (R14, R33, R50, R74, R120, R133, R150, R161, R175). -/
def ResetHeldInv (s : State) : Prop :=
  s.inReset = true → s = State.held s.pins s.frt.held s.pfl.startCause s.pending

end Sys2Proof.Machine
end

