-- ==== Sys2Proof/Certificates/Slice0/Obligations.lean ====
section
/-! DEFINITION. The statements for the provers, chapter by chapter. The word "ready" is State.ready: no reset is held
and nothing is due, so that a command from outside acts on the state as it stands (log 2). -/

open Sys2Proof Sys2Proof.Machine

/-! ## The queue and the outcomes -/

/-- Step takes the command at the front of the queue and answers what exec answers on the state with the queue's
rest. -/
def Obligations.StepRunsTheFrontCommand : Prop :=
  ∀ (c : Instr) (s : State), step { s with pending := c :: s.pending } = exec c s

/-- A well-formed command goes on to a next state in every state and leaves the queue of waiting commands as it was.
That it goes on also where its event's condition does not hold is the model's choice (log 3), and so are the bounds on
a grabber's request outside which a command is not well formed and is refused (log 20). The last clause only records
that Fault has no constructor: the manual gives no fault. -/
def Obligations.WellFormedCommandsProceed : Prop :=
  (∀ (c : Instr) (s : State), c.wellFormed = true → ∃ t, exec c s = .next t ∧ t.pending = s.pending) ∧
    ∀ (c : Instr) (s : State) (f : Fault), exec c s ≠ .fault f

/-- The model's choices (log 2, log 4). In a state in which nothing is due, taking what is due changes nothing. A step
that finds the queue empty is one microsecond: with nothing due and CLEAR inactive, TIME increases by one modulo 2^32
and the CLEAR reference takes the sample; while a reset is held nothing changes. -/
def Obligations.QuietStatesSettleAndIdle : Prop :=
  (∀ s : State, s.quiet = true → settle s = s) ∧
    ∀ s : State, s.pending = [] →
      (s.inReset = true → step s = .next s) ∧
        (s.ready = true → s.pins.clear = false →
          step s = .next
            { s with wpu := { s.wpu with time := s.wpu.time + 1 }, sau := { s.sau with clearRef := false } })

/-! ## Resets -/

/-- POWER_ON and RESET_PIN, in every state: every block takes the values R14, R33, R50, R74, R91, R120, R133, R150,
R161 and R175 give it, the hold state and the input lines stay as they are. The start cause follows R165: POWER_ON for
the first reset end after power is applied (a reset pin taken while the power-on reset is held does not change it,
log 19). -/
def Obligations.ResetsSetTheStatedValues : Prop :=
  ∀ (c : Instr) (s : State), c = .powerOn ∨ c = .resetPin →
    ∃ t, exec c s = .next t ∧ t.inReset = true ∧ t.pins = s.pins ∧
      t.wpu = { encRef := none, wpos := 0, wmax := 0, depth := 0, deepDelivered := false, deepest := 0,
                encErrors := 0, time := 0 } ∧
      (t.mkt.lock = .search ∧ t.mkt.cand = none ∧ t.mkt.newest = none ∧ t.mkt.deferred = false ∧
        t.mkt.history = [] ∧ t.mkt.coasting = 0 ∧ t.mkt.glitch = 0 ∧ t.mkt.inhibit = 0 ∧ t.mkt.markRef = false) ∧
      (∀ ch, t.tgn.get ch = { countdown := none, pulse := none, seq := 0, ptq := [] }) ∧
      (∀ ch, t.lnb.get ch =
        { state := .disabled, ctx := none, kL := none, ringOfs := 0, unmatched := 0,
          totals := { unmatched := 0, straggler := 0, uncaptured := 0, fenced := 0, loading := 0, short := 0,
                      misaligned := 0 },
          bytesOut := 0, wrapped := false }) ∧
      t.frt = { entries := [], slotPtr := 0, serial := 0, held := s.frt.held, writeList := [] } ∧
      (t.egu.hostUp = false ∧ t.egu.grabberRunning = false ∧ t.egu.trained = false ∧ t.egu.egress = [] ∧
        t.egu.ingress = none ∧ t.egu.flowOpen = false ∧ t.egu.downstream = []) ∧
      (t.rpu.queue = [] ∧ t.rpu.writer = none ∧ t.rpu.seq = 0 ∧ t.rpu.dropped = 0 ∧ t.rpu.folded = [] ∧
        t.rpu.statusCount = 0) ∧
      (t.sau.speedT0 = none ∧ t.sau.raw = 0 ∧ t.sau.blockSum = 0 ∧ t.sau.blockCount = 0 ∧ t.sau.speedAvg = 0 ∧
        t.sau.cond = .none ∧ t.sau.flags = .none ∧ t.sau.clearRef = true ∧ t.sau.alert = false) ∧
      (t.pfl.loader = .loadingInitial ∧ t.pfl.active = none ∧ t.pfl.target = none ∧ t.pfl.staging = none ∧
        t.pfl.owner = .loader ∧ t.pfl.sgnt = false ∧ t.pfl.refused = none ∧ t.pfl.debounce = none ∧
        t.pfl.transaction = none) ∧
      t.pfl.startCause =
        (if c = .powerOn ∨ (s.inReset = true ∧ s.pfl.startCause = .powerOn) then .powerOn else .resetPin)

/-- RESET_END while a reset is held: the encoder pair becomes the reference uncounted (R1, R14), PSEL is sampled as
the stable value and the target (R165), the start-up load's first transaction begins, the read command 03H with the
address 0 for 64 bytes (R180), and nothing else changes. While none is held it is no event (the model's choice,
log 3). -/
def Obligations.ResetEndStartsTheStartUpLoad : Prop :=
  ∀ s : State,
    (s.inReset = true →
      exec .resetEnd s = .next
        { s with
          inReset := false
          wpu := { s.wpu with encRef := some (s.pins.encA, s.pins.encB) }
          pfl := { s.pfl with
            pselStable := s.pins.psel, target := some s.pins.psel
            transaction := some { driven := [3, 0, 0], count := 64 } } }) ∧
      (s.inReset = false → exec .resetEnd s = .next s)

/-! ## Chapter 1 -/

/-- Signed distance (R10): (b − a) modulo 2^40, less 2^40 when that is 2^39 or more, in −2^39 to 2^39 − 1; "at or
past" means 0 or more, "before" means negative, and strictly past, 1 or more, is at or past but not equal; sums and
differences of positions and distances are formed modulo 2^40. -/
def Obligations.SignedDistanceOfPositions : Prop :=
  ∀ a b : Pos,
    sdist a b = (if 2 ^ 39 ≤ (b - a).toNat then ((b - a).toNat : Int) - 2 ^ 40 else ((b - a).toNat : Int)) ∧
      -(2 ^ 39) ≤ sdist a b ∧ sdist a b ≤ 2 ^ 39 - 1 ∧
      (atOrPast a b = true ↔ 0 ≤ sdist a b) ∧ (before a b = true ↔ sdist a b < 0) ∧
      (1 ≤ sdist a b ↔ atOrPast a b = true ∧ a ≠ b) ∧
      ∀ n : Nat, (posAdd a n).toNat = (a.toNat + n) % 2 ^ 40 ∧
        (posSub a n).toNat = ((a.toNat : Int) - n).emod (2 ^ 40)

/-- An observed pair equal to the reference is no event, and a first pair becomes the reference without being counted
(R1); the observed pair otherwise becomes the reference, whatever the class (R1). -/
def Obligations.ObservedPairBecomesTheReference : Prop :=
  ∀ (s : State) (a b : Bool) (rdy : Quad Bool), s.ready = true →
    (s.wpu.encRef = some (a, b) →
      exec (.encoderTransition a b rdy) s =
        .next { s with pins := { s.pins with encA := a, encB := b, rdy := rdy } }) ∧
      (s.wpu.encRef = none →
        exec (.encoderTransition a b rdy) s =
          .next { s with pins := { s.pins with encA := a, encB := b, rdy := rdy },
                         wpu := { s.wpu with encRef := some (a, b) } }) ∧
      ∃ t, exec (.encoderTransition a b rdy) s = .next t ∧ t.wpu.encRef = some (a, b) ∧
        t.pins = { s.pins with encA := a, encB := b, rdy := rdy }

/-- A forward transition at depth 0 is an advance (R3): WPOS and WMAX one on, the deep-reversal flag CLEAR; every
enabled channel's countdown decreases by one (R36), the raw sample counts it while the speed interval runs (R153),
and the MARK reference takes the sampled level (R16). The links, the loader and the pins' other levels stay. That a
countdown at 0, a head at the latency limit and a candidate at its MARK_MIN wait for the rows FIRE, LATENCY_EXPIRY and
CANDIDATE_QUALIFIES is the model's choice (log 2). A candidate (R19): with MARK active its count rises by one; with
MARK inactive it is discarded, the glitch count rises by one up to 65,535, and a deferred expiry is carried out (R23),
by a synthesized mark below MISS_MAX (R24) and by the loss of lock at it (R25). With no candidate, an edge (R16) starts
one in SEARCH (R18), and locked or coasting, not past W_hi, is inhibited below W_lo and starts one from W_lo on (R21);
without an edge none starts. Last, the completion rule is evaluated for every BOUNDED entry and every enabled channel
(R113; CompletionRuleClosesEntries says what that does): where no deferred expiry is carried out, that is all that the
advance does beside the above, and where one is, the Frame Table has first handled its mark (R99) or its loss (R105).
That the evaluation comes last is the model's choice (log 1). -/
def Obligations.AdvanceReachesTheBlocks : Prop :=
  ∀ (s : State) (a b : Bool) (rdy : Quad Bool) (r : Bool × Bool), s.ready = true → s.wpu.encRef = some r →
    classifyPair s.encInverted r (a, b) = .forward → s.wpu.depth = 0 →
    ∃ t, exec (.encoderTransition a b rdy) s = .next t ∧
      t.wpu = { s.wpu with encRef := some (a, b), wpos := s.wpu.wpos + 1, wmax := s.wpu.wpos + 1,
                           deepDelivered := false } ∧
      (∀ c, t.tgn.get c =
        if s.enabled c then { s.tgn.get c with countdown := (s.tgn.get c).countdown.map (· - 1) } else s.tgn.get c) ∧
      t.sau.raw = (if s.profile.isSome && s.sau.speedT0.isSome then min 16777215 (s.sau.raw + 1) else s.sau.raw) ∧
      t.mkt.markRef = s.markActive s.pins.mark ∧ t.egu = s.egu ∧ t.pfl = s.pfl ∧
      t.pins = { s.pins with encA := a, encB := b, rdy := rdy } ∧
      ∀ p, s.profile = some p →
        let active := s.pins.mark != p.markActiveLow
        let w := s.wpu.wpos + 1
        let fresh (inWin : Bool) : Candidate := { start := w, count := 0, inWindow := inWin, markMin := p.markMin }
        let rejected := { s.mkt with markRef := false, edgePending := false, cand := none,
                                     glitch := min 65535 (s.mkt.glitch + 1) }
        (∀ k, s.mkt.cand = some k → active = true →
          t.mkt = { s.mkt with markRef := true, cand := some { k with count := k.count + 1 },
                               edgePending := t.mkt.edgePending } ∧ t.frt.serial = s.frt.serial) ∧
          (s.mkt.cand.isSome → active = false → s.mkt.deferred = false →
            t.mkt = rejected ∧ t.frt.serial = s.frt.serial) ∧
          (∀ m, s.mkt.cand.isSome → active = false → s.mkt.deferred = true → s.mkt.newest = some m →
            (s.mkt.coasting < p.missMax →
              t.mkt = { rejected with newest := some { pos := m.pos + BitVec.ofNat 40 s.mkt.lAvg, synth := true },
                                      coasting := s.mkt.coasting + 1, deferred := false, lock := .coasting } ∧
                t.frt.serial = s.frt.serial + 1 ∧
                (let marked := deliverMark { pos := m.pos + BitVec.ofNat 40 s.mkt.lAvg, synth := true }
                   { s with wpu := t.wpu }
                 t.frt = (evaluate Ch.all (fun _ => true) marked).frt ∧ t.lnb = marked.lnb)) ∧
              (p.missMax ≤ s.mkt.coasting →
                t.mkt = { rejected with newest := none, coasting := 0, deferred := false, lock := .search,
                                        history := [], lAvg := p.lExp } ∧
                  t.frt.serial = s.frt.serial ∧ t.sau.flags.lockLost = true ∧ t.lnb = s.lnb ∧
                  t.frt = (evaluate Ch.all (fun _ => true) (deliverLoss (m.pos + BitVec.ofNat 40 s.mkt.lAvg) .window
                    { s with wpu := t.wpu })).frt)) ∧
          (s.mkt.cand = none ∨ active = true ∨ s.mkt.deferred = false →
            t = evaluate Ch.all (fun _ => true)
              { s with pins := t.pins, wpu := t.wpu, mkt := t.mkt, tgn := t.tgn,
                       sau := { s.sau with raw := t.sau.raw } }) ∧
          (s.mkt.cand = none → active = true → s.mkt.markRef = false →
            (s.mkt.lock = .search →
              t.mkt = { s.mkt with markRef := true, edgePending := false, cand := some (fresh false) }) ∧
              ∀ m, s.mkt.lock ≠ .search → s.mkt.newest = some m →
                (sdist m.pos w < (p.lExp - p.lTol : Nat) →
                  t.mkt = { s.mkt with markRef := true, edgePending := false,
                                       inhibit := min 65535 (s.mkt.inhibit + 1) }) ∧
                  ((p.lExp - p.lTol : Nat) ≤ sdist m.pos w → sdist m.pos w ≤ (p.lExp + p.lTol : Nat) →
                    t.mkt = { s.mkt with markRef := true, edgePending := false, cand := some (fresh true) })) ∧
          (s.mkt.cand = none → active = false ∨ s.mkt.markRef = true →
            t.mkt = { s.mkt with markRef := active, edgePending := false })

/-- A forward transition at a depth above 0 is a return (R4): WPOS becomes (WPOS + 1) modulo 2^40, WMAX keeps its
value, the depth falls by one, and no block receives it. The return from depth 1 leaves WPOS equal to WMAX. -/
def Obligations.ReturnMovesWposAlone : Prop :=
  ∀ (s : State) (a b : Bool) (rdy : Quad Bool) (r : Bool × Bool), s.ready = true → s.wpu.encRef = some r →
    classifyPair s.encInverted r (a, b) = .forward → 0 < s.wpu.depth →
    exec (.encoderTransition a b rdy) s = .next
      { s with pins := { s.pins with encA := a, encB := b, rdy := rdy },
               wpu := { s.wpu with encRef := some (a, b), wpos := s.wpu.wpos + 1, depth := s.wpu.depth - 1 } } ∧
      (PositionInv s → s.wpu.depth = 1 → s.wpu.wpos + 1 = s.wpu.wmax)

/-- A reverse transition that delivers no deep reversal (R5, R6): below the maximum depth WPOS goes back by one, the
depth rises by one and the deepest backlash follows it up to 16,777,215; at the maximum nothing moves. WMAX stays and
no block receives it. -/
def Obligations.ReverseTransitionMovesWposBack : Prop :=
  ∀ (s : State) (a b : Bool) (rdy : Quad Bool) (r : Bool × Bool), s.ready = true → s.wpu.encRef = some r →
    classifyPair s.encInverted r (a, b) = .reverse →
    (s.wpu.depth = 2 ^ 39 - 1 →
      exec (.encoderTransition a b rdy) s = .next
        { s with pins := { s.pins with encA := a, encB := b, rdy := rdy },
                 wpu := { s.wpu with encRef := some (a, b) } }) ∧
      (s.wpu.depth ≠ 2 ^ 39 - 1 →
        (∀ p, s.profile = some p → s.wpu.deepDelivered = true ∨ s.wpu.depth + 1 ≤ p.reverseLimit) →
        exec (.encoderTransition a b rdy) s = .next
          { s with pins := { s.pins with encA := a, encB := b, rdy := rdy },
                   wpu := { s.wpu with encRef := some (a, b), wpos := s.wpu.wpos - 1, depth := s.wpu.depth + 1,
                                       deepest := min 16777215 (max s.wpu.deepest (s.wpu.depth + 1)) } })

/-- A reverse transition that leaves the depth above REVERSE_LIMIT with the flag CLEAR sets the flag and delivers a
deep reversal (R7). That it does so also where the depth was above the limit before the transition (a profile became
active, or the limit shrank, at such a depth) is the model's choice, which R7 does not settle (log 31). In SEARCH
nothing else happens (R26). Locked or coasting, lock is lost: SEARCH, no candidate (and no glitch counted), no newest
mark, an empty history, L_avg = L_EXP, coasting 0, LOCK_LOST raised; the frame serial is not advanced (R26). The
newest entry, if OPEN, becomes BOUNDED at b = m_n + L_avg with end kind LOCK_LOSS_REVERSAL and the completion rule is
evaluated for it (R105; CompletionRuleClosesEntries says what that does); if it is BOUNDED, or the table is empty, the
frame table stays. -/
def Obligations.DeepReversalLosesLock : Prop :=
  ∀ (s : State) (a b : Bool) (rdy : Quad Bool) (r : Bool × Bool) (p : Profile), s.ready = true →
    s.wpu.encRef = some r → classifyPair s.encInverted r (a, b) = .reverse → s.profile = some p →
    s.wpu.depth < 2 ^ 39 - 1 → s.wpu.deepDelivered = false → p.reverseLimit < s.wpu.depth + 1 →
    ∃ t, exec (.encoderTransition a b rdy) s = .next t ∧
      t.wpu = { s.wpu with encRef := some (a, b), wpos := s.wpu.wpos - 1, depth := s.wpu.depth + 1,
                           deepDelivered := true,
                           deepest := min 16777215 (max s.wpu.deepest (s.wpu.depth + 1)) } ∧
      t.tgn = s.tgn ∧ t.lnb = s.lnb ∧ t.egu = s.egu ∧ t.pfl = s.pfl ∧ t.frt.serial = s.frt.serial ∧
      (s.mkt.lock = .search → t.mkt = s.mkt ∧ t.frt = s.frt ∧ t.rpu = s.rpu ∧ t.sau = s.sau) ∧
      (s.mkt.lock ≠ .search →
        t.mkt = { s.mkt with lock := .search, cand := none, newest := none, deferred := false, history := [],
                             lAvg := p.lExp, coasting := 0 } ∧
          t.sau.flags.lockLost = true ∧ t.sau.cond.repeatLong = false ∧ t.sau.cond.repeatShort = false ∧
          (∀ es e m, s.frt.entries = es ++ [e] → e.fin = none → s.mkt.newest = some m →
            t.frt.entries = (evaluate Ch.all (fun x => x.serial == e.serial)
              { s with frt := { s.frt with entries := es ++
                [{ e with fin := some (m.pos + BitVec.ofNat 40 s.mkt.lAvg, .lockLossReversal) }] } }).frt.entries) ∧
          ((∀ es e, s.frt.entries = es ++ [e] → e.fin.isSome) → t.frt = s.frt))

/-- An encoder error (R8): the positions, the depth and the deep-reversal flag keep their values, the count increases
by one up to 65,535, and the ENCODER flag is SET; no other block but the Report Unit and the SAU is touched. -/
def Obligations.EncoderErrorIsCounted : Prop :=
  ∀ (s : State) (a b : Bool) (rdy : Quad Bool) (r : Bool × Bool), s.ready = true → s.wpu.encRef = some r →
    classifyPair s.encInverted r (a, b) = .error →
    ∃ t, exec (.encoderTransition a b rdy) s = .next t ∧
      t.wpu = { s.wpu with encRef := some (a, b), encErrors := min 65535 (s.wpu.encErrors + 1) } ∧
      t.sau.flags.encoder = true ∧ t.sau.cond = s.sau.cond ∧ t.mkt = s.mkt ∧ t.tgn = s.tgn ∧ t.lnb = s.lnb ∧
      t.frt = s.frt ∧ t.egu = s.egu ∧ t.pfl = s.pfl ∧ t.pins = { s.pins with encA := a, encB := b, rdy := rdy }

/-! ## Chapter 2 -/

/-- A change of MARK (R16): at depth 0 only the level is noted; at a depth above 0 the MARK reference takes the new
level at once, read through MARK_POL, and nothing is started. A change of HOLD sets the hold state and acts on nothing
else (R101). -/
def Obligations.MarkAndHoldChanges : Prop :=
  ∀ (s : State) (l : Bool), s.ready = true →
    (l ≠ s.pins.mark → s.wpu.depth = 0 → exec (.markChange l) s = .next { s with pins := { s.pins with mark := l } }) ∧
      (∀ p, l ≠ s.pins.mark → 0 < s.wpu.depth → s.profile = some p →
        exec (.markChange l) s = .next
          { s with pins := { s.pins with mark := l }, mkt := { s.mkt with markRef := l != p.markActiveLow } }) ∧
      exec (.holdChange l) s = .next { s with frt := { s.frt with held := l } }

/-- A mark edge with no candidate (R18, R21): in SEARCH a candidate starts at WMAX with its in-window flag clear;
locked or coasting, an edge d past the newest mark is inhibited below W_lo, and from W_lo to W_hi starts a candidate
with the flag set. With a candidate the edge is ignored. -/
def Obligations.MarkEdgeStartsOrIsInhibited : Prop :=
  ∀ (p : Profile) (s : State),
    (s.mkt.cand.isSome → startCandidate p s = s) ∧
      (s.mkt.cand = none → s.mkt.lock = .search →
        startCandidate p s =
          { s with mkt := { s.mkt with
            cand := some { start := s.wpu.wmax, count := 0, inWindow := false, markMin := p.markMin } } }) ∧
      ∀ m, s.mkt.cand = none → s.mkt.lock ≠ .search → s.mkt.newest = some m →
        (sdist m.pos s.wpu.wmax < (p.lExp - p.lTol : Nat) →
          startCandidate p s = { s with mkt := { s.mkt with inhibit := min 65535 (s.mkt.inhibit + 1) } }) ∧
          ((p.lExp - p.lTol : Nat) ≤ sdist m.pos s.wpu.wmax → sdist m.pos s.wpu.wmax ≤ (p.lExp + p.lTol : Nat) →
            startCandidate p s =
              { s with mkt := { s.mkt with
                cand := some { start := s.wpu.wmax, count := 0, inWindow := true, markMin := p.markMin } } })

/-- CANDIDATE_QUALIFIES (R19). Without the in-window flag (R20): the newest mark is {c, not synthesized}, LOCKED,
coasting 0, expiry deferred CLEAR, and no length enters the history. With it (R22): the length d from the newest mark
enters the history and L_avg is formed anew, with the same other effects, and the repeat-length conditions compare d,
or L_avg with SLOW_REPEAT = ON (R29). Either way the mark advances the frame serial by one (R98), and the frame table
is as the mark's delivery leaves it (R99; MarkBoundsAndOpensOrSkips says what that does), the channels too (R70). An
edge of the same advance, which waits in edgePending (log 2), is then judged by step 4 of R17 as
MarkEdgeStartsOrIsInhibited states it, unless the new newest mark's window is already past and must run out first. -/
def Obligations.QualifiedCandidateIsAccepted : Prop :=
  ∀ (s : State) (p : Profile) (k : Candidate), s.inReset = false → s.profile = some p → s.mkt.cand = some k →
    k.markMin ≤ k.count →
    let step4 (m : Mkt) : Mkt :=
      if s.mkt.edgePending = false ∨ ((p.lExp + p.lTol : Nat) : Int) + 1 ≤ sdist k.start s.wpu.wmax then m
      else (startCandidate p { s with mkt := { m with edgePending := false } }).mkt
    ∃ t, exec .candidateQualifies s = .next t ∧ t.frt.serial = s.frt.serial + 1 ∧
      t.frt = (deliverMark { pos := k.start, synth := false } s).frt ∧
      t.lnb = (deliverMark { pos := k.start, synth := false } s).lnb ∧ t.wpu = s.wpu ∧ t.tgn = s.tgn ∧
      t.egu = s.egu ∧ t.pfl = s.pfl ∧ t.pins = s.pins ∧
      (k.inWindow = false →
        t.mkt = step4 { s.mkt with newest := some { pos := k.start, synth := false }, lock := .locked, coasting := 0,
                                   deferred := false, cand := none }) ∧
      ∀ m, k.inWindow = true → s.mkt.newest = some m →
        let d := (sdist m.pos k.start).toNat
        let h := (d :: s.mkt.history).take 16
        let avg := repeatAverage p h
        t.mkt = step4 { s.mkt with newest := some { pos := k.start, synth := false }, lock := .locked, coasting := 0,
                                   deferred := false, cand := none, history := h, lAvg := avg } ∧
          t.sau.cond.repeatLong = decide (p.lHi < if p.slowRepeat then avg else d) ∧
          t.sau.cond.repeatShort = decide ((if p.slowRepeat then avg else d) < p.lLo)

/-- WINDOW_RUNS_OUT at W_hi + 1 past the newest mark (R23). With an in-window candidate still qualifying the expiry is
deferred. Otherwise, with the coasting count below MISS_MAX a mark is synthesized at m_n + L_avg (R24), and the frame
table is as its delivery leaves it (R99; MarkBoundsAndOpensOrSkips says what that does), the channels too (R70); at
MISS_MAX lock is lost (R25), and the newest entry, if OPEN, becomes BOUNDED at b = m_n + L_avg with end kind
LOCK_LOSS_WINDOW and the completion rule is evaluated for it (R105; CompletionRuleClosesEntries says what that does).
An edge of the same advance, which waits in edgePending (log 2), is then judged by step 4 of R17: with a candidate it
is ignored, in SEARCH it starts one at WMAX (R18), and against the synthesized mark it is judged as
MarkEdgeStartsOrIsInhibited states it, unless that mark's window is past as well. -/
def Obligations.WindowRunsOut : Prop :=
  ∀ (s : State) (p : Profile) (m : Mark), s.inReset = false → s.profile = some p → s.mkt.newest = some m →
    s.mkt.lock ≠ .search → s.mkt.deferred = false → s.qualifiesDue = false →
    ((p.lExp + p.lTol : Nat) : Int) + 1 ≤ sdist m.pos s.wpu.wmax →
    (∀ k, s.mkt.cand = some k → k.inWindow = true →
      exec .windowRunsOut s = .next { s with mkt := { s.mkt with deferred := true, edgePending := false } }) ∧
      (s.mkt.cand = none → s.mkt.coasting < p.missMax →
        let x := m.pos + BitVec.ofNat 40 s.mkt.lAvg
        let k := { s.mkt with newest := some { pos := x, synth := true }, coasting := s.mkt.coasting + 1,
                              deferred := false, lock := .coasting }
        ∃ t, exec .windowRunsOut s = .next t ∧
          t.mkt =
            (if s.mkt.edgePending = false ∨ ((p.lExp + p.lTol : Nat) : Int) + 1 ≤ sdist x s.wpu.wmax then k
             else (startCandidate p { s with mkt := { k with edgePending := false } }).mkt) ∧
          t.frt.serial = s.frt.serial + 1 ∧ t.frt = (deliverMark { pos := x, synth := true } s).frt ∧
          t.lnb = (deliverMark { pos := x, synth := true } s).lnb ∧ t.sau.cond.repeatLong = s.sau.cond.repeatLong ∧
          t.sau.cond.repeatShort = s.sau.cond.repeatShort ∧ t.wpu = s.wpu ∧ t.tgn = s.tgn ∧ t.egu = s.egu ∧
          t.pfl = s.pfl) ∧
      (s.mkt.cand = none → p.missMax ≤ s.mkt.coasting →
        let fresh : Candidate := { start := s.wpu.wmax, count := 0, inWindow := false, markMin := p.markMin }
        ∃ t, exec .windowRunsOut s = .next t ∧
          t.mkt = { s.mkt with newest := none, coasting := 0, deferred := false, lock := .search, history := [],
                               lAvg := p.lExp, edgePending := false,
                               cand := if s.mkt.edgePending then some fresh else none } ∧
          (∀ es e, s.frt.entries = es ++ [e] → e.fin = none →
            t.frt.entries = (evaluate Ch.all (fun x => x.serial == e.serial)
              { s with frt := { s.frt with entries := es ++
                [{ e with fin := some (m.pos + BitVec.ofNat 40 s.mkt.lAvg, .lockLossWindow) }] } }).frt.entries) ∧
          ((∀ es e, s.frt.entries = es ++ [e] → e.fin.isSome) → t.frt = s.frt) ∧
          t.frt.serial = s.frt.serial ∧ t.sau.flags.lockLost = true ∧ t.sau.cond.repeatLong = false ∧
          t.sau.cond.repeatShort = false ∧ t.wpu = s.wpu ∧ t.tgn = s.tgn ∧ t.lnb = s.lnb ∧ t.egu = s.egu ∧
          t.pfl = s.pfl)

/-- The repeat average (R28) is formed anew whenever the length history changes: L_EXP with the history empty, else
(S + N div 2) div N over the N newest lengths, N the lesser of REPEAT_AVG and the number held. When every length lies
in W_lo to W_hi, so does L_avg. That a mean above the 16,777,215 of Table 2-1 is held as it is formed is the model's
choice (log 34). -/
def Obligations.RepeatAverageIsTheRoundedMean : Prop :=
  ∀ (p : Profile) (h : List Nat) (m : Mkt),
    (setHistory p h m).history = h ∧ (h = [] → (setHistory p h m).lAvg = p.lExp) ∧
      (h ≠ [] → (setHistory p h m).lAvg =
        ((h.take (min p.repeatAvg h.length)).sum + min p.repeatAvg h.length / 2) / min p.repeatAvg h.length) ∧
      (1 ≤ p.repeatAvg → p.lTol ≤ p.lExp → (∀ d ∈ h, p.lExp - p.lTol ≤ d ∧ d ≤ p.lExp + p.lTol) →
        p.lExp - p.lTol ≤ (setHistory p h m).lAvg ∧ (setHistory p h m).lAvg ≤ p.lExp + p.lTol)

/-! ## Chapter 3 -/

/-- FIRE with no head at the latency limit: the countdown is reloaded with LP (R36). With no condition of Table 3-3
holding the trigger is emitted (R39): the pulse starts at the current TIME, the record {counter, WMAX, WMAX − D_c}
joins the tail of the queue, and the counter increases by one modulo 2^32. With one holding the fire is skipped (R37):
the pulse, the counter and the queue do not change, and the skipped count of the entry containing WMAX − D_c rises by
one (R47, R108). Either way nothing else changes. -/
def Obligations.FireIsJudged : Prop :=
  ∀ (s : State) (p : Profile) (c : Ch), s.inReset = false → s.profile = some p → (p.ch.get c).enable = true →
    (s.tgn.get c).countdown = some 0 → s.latencyDue c = false →
    ((s.lnb.get c).state ≠ .fenced → s.pfl.loader ≠ .loading → (s.tgn.get c).pulse = none →
      s.pins.rdy.get c = true → (s.tgn.get c).ptq.length < 32 →
      exec (.fire c) s = .next { s with
        tgn := s.tgn.set c
          { countdown := some p.lp, pulse := some { t0 := s.wpu.time, width := p.trgWidth },
            seq := (s.tgn.get c).seq + 1,
            ptq := (s.tgn.get c).ptq ++
              [{ seq := (s.tgn.get c).seq, p := s.wpu.wmax,
                 w := s.wpu.wmax - BitVec.ofNat 40 (p.ch.get c).stagger }] } }) ∧
      ((s.lnb.get c).state = .fenced ∨ s.pfl.loader = .loading ∨ (s.tgn.get c).pulse ≠ none ∨
        s.pins.rdy.get c = false ∨ 32 ≤ (s.tgn.get c).ptq.length →
        exec (.fire c) s = .next { s with
          tgn := s.tgn.set c { s.tgn.get c with countdown := some p.lp }
          frt := { s.frt with
            entries := bumpEntry .skipped c (s.wpu.wmax - BitVec.ofNat 40 (p.ch.get c).stagger) s.frt.entries } })

/-- A notice counts once, in one entry (R107): of the entries, the first that contains the web point has the named
count of the notice's channel increased by one, saturating at 65,535, and every other entry and every other field
stays. When no entry contains it, nothing is counted. -/
def Obligations.NoticeCountsInTheContainingEntry : Prop :=
  ∀ (k : CountKind) (c : Ch) (w : Pos) (es : List FrameEntry),
    ((∀ e ∈ es, e.contains w = false) → bumpEntry k c w es = es) ∧
      ∀ pre e post, es = pre ++ e :: post → (∀ x ∈ pre, x.contains w = false) → e.contains w = true →
        let n := e.counts.get c
        bumpEntry k c w es = pre ++ { e with counts := e.counts.set c (match k with
          | .placed => { n with placed := min 65535 (n.placed + 1) }
          | .short => { n with short := min 65535 (n.short + 1) }
          | .overlong => { n with overlong := min 65535 (n.overlong + 1) }
          | .expired => { n with expired := min 65535 (n.expired + 1) }
          | .skipped => { n with skipped := min 65535 (n.skipped + 1) }) } :: post

/-- TRIGGER_PULSE_END at the expiry of TRG_WIDTH (R12, R40): TRGc goes inactive and nothing else changes; before the
expiry it is no event (the model's choice, log 3). LATENCY_EXPIRY with the head's age at or beyond
LAT_CMP × 2^LAT_SCALE (R45): the head record leaves the queue, the countdown, the pulse and the counter stay, the
expired count of the entry containing its w rises and the completion rule is evaluated for the channel (R109). -/
def Obligations.PulseEndAndLatencyExpiry : Prop :=
  ∀ (s : State) (c : Ch), s.inReset = false →
    (∀ q, (s.tgn.get c).pulse = some q →
      (elapsed s.wpu.time q.t0 = q.width →
        exec (.triggerPulseEnd c) s = .next { s with tgn := s.tgn.set c { s.tgn.get c with pulse := none } }) ∧
        (elapsed s.wpu.time q.t0 ≠ q.width → exec (.triggerPulseEnd c) s = .next s)) ∧
      ∀ (p : Profile) (r : TrigRec) (rest : List TrigRec), s.profile = some p → (p.ch.get c).enable = true →
        (s.tgn.get c).ptq = r :: rest → ((p.latCmp * 2 ^ p.latScale : Nat) : Int) ≤ sdist r.p s.wpu.wmax →
        ∃ t, exec (.latencyExpiry c) s = .next t ∧
          t.tgn = s.tgn.set c { s.tgn.get c with ptq := rest } ∧
          t = evaluate [c] (fun _ => true) { s with
            tgn := s.tgn.set c { s.tgn.get c with ptq := rest }
            frt := { s.frt with entries := bumpEntry .expired c r.w s.frt.entries } } ∧
          t.mkt = s.mkt ∧ t.lnb = s.lnb ∧ t.wpu = s.wpu ∧ t.egu = s.egu ∧ t.pfl = s.pfl

/-! ## Chapter 4 -/

/-- STALL at twice the latency limit past the context's start (R62): the context becomes EMPTY and kL takes k0. With
disposition REFUSED nothing else changes, also where the line holds a record (UNCAPTURED, OVERLONG): that no notice is
sent then is the model's reading (log 25). With PLACED the short total rises by one (R60, R73), the short count of the
entry that contains the record's w rises by one, and the completion rule is evaluated for the channel (R110). -/
def Obligations.StallEndsTheContext : Prop :=
  ∀ (s : State) (p : Profile) (c : Ch) (n : Line), s.inReset = false → s.profile = some p →
    (s.lnb.get c).ctx = some n → 2 * ((p.latCmp * 2 ^ p.latScale : Nat) : Int) ≤ sdist n.start s.wpu.wmax →
    (∀ k, n.disp = .refused k →
      exec (.stall c) s = .next { s with lnb := s.lnb.set c { s.lnb.get c with ctx := none, kL := some n.k0 } }) ∧
      (∀ e j r, n.disp = .placed e j r →
        ∃ t, exec (.stall c) s = .next t ∧
          t.lnb = s.lnb.set c
            { s.lnb.get c with ctx := none, kL := some n.k0, totals :=
                { (s.lnb.get c).totals with short := min 4294967295 ((s.lnb.get c).totals.short + 1) } } ∧
          (n.record = none → t.frt = s.frt) ∧
          (∀ x, n.record = some x → t.frt = (evaluate [c] (fun _ => true) { s with
            lnb := t.lnb, frt := { s.frt with entries := bumpEntry .short c x.w s.frt.entries } }).frt) ∧
          t.tgn = s.tgn ∧ t.mkt = s.mkt ∧ t.wpu = s.wpu ∧ t.egu = s.egu ∧ t.pfl = s.pfl)

/-- FENCE with the unmatched count at FENCE_COUNT in RUNNING (R69): the channel is FENCED with unmatched count 0, an
EMPTY context and kL NONE, its ring offset and totals kept; its queue is empty, its countdown, pulse and counter kept;
CHANNEL_FENCED holds when no other channel was FENCED; no other channel changes. -/
def Obligations.FenceClosesTheChannel : Prop :=
  ∀ (s : State) (p : Profile) (c : Ch), s.inReset = false → s.profile = some p →
    (s.lnb.get c).state = .running → p.fenceCount ≤ (s.lnb.get c).unmatched →
    ∃ t, exec (.fence c) s = .next t ∧
      t.lnb = s.lnb.set c { s.lnb.get c with state := .fenced, unmatched := 0, ctx := none, kL := none } ∧
      t.tgn = s.tgn.set c { s.tgn.get c with ptq := [] } ∧
      ((∀ d, d ≠ c → (s.lnb.get d).state ≠ .fenced) → t.sau.cond.channelFenced = true) ∧
      ((∃ d, d ≠ c ∧ (s.lnb.get d).state = .fenced) → t.sau.cond.channelFenced = s.sau.cond.channelFenced) ∧
      t.mkt = s.mkt ∧ t.wpu = s.wpu ∧ t.egu = s.egu ∧ t.pfl = s.pfl ∧ t.frt.serial = s.frt.serial

/-- PIECE_ADMISSION, granted (R126, R127): the part handed to the binder is the next one of the request in progress;
its output writes join the tail of the egress queue in order, with origin GRABBER; their bytes are added to the
channel's bytes-out count, whose wrapped flag a wrap sets (R91); the pending-trigger queues, the frame table, the
contexts, the reports and the alerts are as the binder leaves them; and the ingress goes on with the bytes that remain,
IDLE when none remains (R124). -/
def Obligations.PieceAdmissionQueuesItsOutput : Prop :=
  ∀ (s : State) (p : Profile) (g : Ingress) (c : Ch) (o n : Nat), s.ready = true → s.profile = some p →
    s.ingressGrant = some g → s.nextPart g = .piece c o n →
    ∃ t, exec .pieceAdmission s = .next t ∧
      (let r := handlePiece p c o (g.data.take n) s
       t.egu.egress = s.egu.egress ++ r.2.map (fun w =>
           { origin := .grabber, kind := .memWrite, addr := w.addr, len := w.data.length, data := w.data }) ∧
         (t.lnb.get c).bytesOut =
           (s.lnb.get c).bytesOut + BitVec.ofNat 40 ((r.2.map (·.data.length)).sum) ∧
         (∀ d, d ≠ c → (t.lnb.get d).bytesOut = (s.lnb.get d).bytesOut) ∧
         t.lnb = r.1.lnb.set c { r.1.lnb.get c with
           bytesOut := (t.lnb.get c).bytesOut
           wrapped := (s.lnb.get c).wrapped ||
             decide (2 ^ 40 ≤ (s.lnb.get c).bytesOut.toNat + (r.2.map (·.data.length)).sum) } ∧
         t.tgn = r.1.tgn ∧ t.frt = r.1.frt ∧ t.rpu = r.1.rpu ∧ t.sau = r.1.sau) ∧
      t.egu.ingress =
        (if g.data.drop n = [] then none else some { g with addr := g.addr + n, data := g.data.drop n }) ∧
      t.egu.flowOpen = t.flowMayOpen ∧ t.egu.downstream = s.egu.downstream ∧ t.egu.hostUp = s.egu.hostUp ∧
      t.mkt = s.mkt ∧ t.wpu = s.wpu ∧ t.pfl = s.pfl ∧ t.pins = s.pins

/-- The relation of a piece to the line context (R57, Table 4-4): with a reference index, d = 0 continues a FILLING
line and is a straggler after an EMPTY one; 1 ≤ d with 2 d below SRC_LINES begins a new line; anything further is a
straggler; with no reference the piece begins a new line. A piece in padding is absorbed without being related to any
line (R55): nothing changes. A straggler piece is absorbed whole (R61): the context, kL, the queues and the frame table
stay, and the channel's straggler total increases by one. Neither gives an output write. A continuation's valid bytes
(R59), and a new line's once it is bound (R63), are taken against the fill mark (R56): those at or past it are accepted,
counted, and the mark moves one past them. With PLACED the accepted bytes are placed in the recorded slot and row, which
gives the output writes and the misaligned bytes (R91); with REFUSED they are absorbed. At a count of SRC_LINE_BYTES_c
the line completes (R64): the context is EMPTY, kL takes k0, and a record has the completion rule evaluated. A new line
first ends the line in progress (R60): REFUSED, without a further outcome; PLACED, as SHORT, with its total, its count
in the entry that contains the record's w, and the evaluation. NewLineInRunningBindsItsRecord says what newLine does. -/
def Obligations.PiecesAreRelatedAndStragglersAbsorbed : Prop :=
  (∀ (l : Lnb) (lines k : Nat), 0 < lines →
    (l.ctx = none → l.kL = none → l.relation lines k = .newLine) ∧
      ∀ reference d : Nat, (∀ n, l.ctx = some n → reference = n.k0) → (l.ctx = none → l.kL = some reference) →
        d < lines → (reference + d) % lines = k % lines →
        l.relation lines k =
          if d = 0 then (if l.ctx.isSome then .continuation else .straggler)
          else if 2 * d < lines then .newLine else .straggler) ∧
    (∀ (s : State) (p : Profile) (c : Ch) (o : Nat) (d : List Byte),
      (d.take ((p.ch.get c).lineBytes - o % (p.ch.get c).srcPitch) = [] → handlePiece p c o d s = (s, [])) ∧
        (d.take ((p.ch.get c).lineBytes - o % (p.ch.get c).srcPitch) ≠ [] →
          (s.lnb.get c).relation (p.ch.get c).srcLines (o / (p.ch.get c).srcPitch) = .straggler →
          ∃ t, handlePiece p c o d s = (t, []) ∧
            t.lnb = s.lnb.set c { s.lnb.get c with totals := { (s.lnb.get c).totals with
              straggler := min 4294967295 ((s.lnb.get c).totals.straggler + 1) } } ∧
            t.tgn = s.tgn ∧ t.frt = s.frt ∧ t.egu = s.egu ∧ t.mkt = s.mkt ∧ t.wpu = s.wpu ∧ t.pfl = s.pfl)) ∧
    (∀ (s : State) (p : Profile) (c : Ch) (o : Nat) (d : List Byte),
      let q := p.ch.get c
      let b := o % q.srcPitch
      let k := o / q.srcPitch
      let valid := d.take (q.lineBytes - b)
      let takes (u : State) (n : Line) (r : State × List Write) : Prop :=
        let l := u.lnb.get c
        let from' := max b n.fill
        let accepted := valid.drop (from' - b)
        let count := n.count + accepted.length
        let fill := if accepted = [] then n.fill else b + valid.length
        let out := match n.disp with
          | .placed _ slot row => placeSubPiece p q slot row from' accepted
          | .refused _ => ([], 0)
        let totals := { l.totals with misaligned := min 4294967295 (l.totals.misaligned + out.2) }
        let ended := { u with lnb := u.lnb.set c { l with ctx := none, kL := some n.k0, totals := totals } }
        r.2 = out.1 ∧
          r.1 =
            if count = q.lineBytes then (if n.record.isSome then evaluate [c] (fun _ => true) ended else ended)
            else { u with lnb := u.lnb.set c { l with
              ctx := some { n with fill := fill, count := count }, totals := totals } }
      valid ≠ [] →
        (∀ n, (s.lnb.get c).ctx = some n → (s.lnb.get c).relation q.srcLines k = .continuation →
          takes s n (handlePiece p c o d s)) ∧
          ((s.lnb.get c).relation q.srcLines k = .newLine →
            let u := newLine p c k (endShort c s)
            ∀ n, (u.lnb.get c).ctx = some n → takes u n (handlePiece p c o d s))) ∧
    ∀ (s : State) (c : Ch),
      let l := s.lnb.get c
      (l.ctx = none → endShort c s = s) ∧
        (∀ n kind, l.ctx = some n → n.disp = .refused kind →
          endShort c s = { s with lnb := s.lnb.set c { l with ctx := none, kL := some n.k0 } }) ∧
        ∀ n serial slot row, l.ctx = some n → n.disp = .placed serial slot row →
          let t := endShort c s
          t.lnb = s.lnb.set c { l with ctx := none, kL := some n.k0, totals :=
              { l.totals with short := min 4294967295 (l.totals.short + 1) } } ∧
            (n.record = none → t.frt = s.frt) ∧
            (∀ x, n.record = some x → t.frt = (evaluate [c] (fun _ => true) { s with
              lnb := t.lnb, frt := { s.frt with entries := bumpEntry .short c x.w s.frt.entries } }).frt) ∧
            t.tgn = s.tgn ∧ t.egu = s.egu ∧ t.mkt = s.mkt ∧ t.wpu = s.wpu ∧ t.pfl = s.pfl

/-- A new line in RUNNING (R66). When the first record of expected index k is r, each record ahead of it leaves the
queue as BYPASSED, oldest first, with its event, its expired count and the evaluation (R71, R109); r leaves it and the
unmatched count is 0. When there is none, the queue stays, the line is refused UNMATCHED without a record, and the
unmatched count and total rise by one. Which case applies (R63): in LOADING the line is refused LOADING whatever the
channel state (R68), else in FENCED refused FENCED (R67), each without a record, raising its own total by one and
leaving the queue and the unmatched count; else in RESYNC (R65) the head record is adopted, the channel is RUNNING
with RING_OFS = (k − seq) modulo SRC_LINES and unmatched count 0, and with an empty queue the line is refused
UNMATCHED, the total rises and the count does not; else the case of RUNNING. A line with a record has the disposition
that the frame request gives for the record's w (R66, R77 to R79); UNCAPTURED raises its total by one (R73), PLACED
and OVERLONG raise their count in the entry that contains w, and the completion rule is evaluated for the channel
(R110). -/
def Obligations.NewLineInRunningBindsItsRecord : Prop :=
  ∀ (s : State) (p : Profile) (c : Ch) (k : Nat),
    let l := s.lnb.get c
    let lines := (p.ch.get c).srcLines
    let bound (u : State) (r : TrigRec) (l' : Lnb) (t : State) : Prop :=
      let d := u.frameRequest p r.w
      t.lnb = s.lnb.set c { l' with
          unmatched := 0
          ctx := some { k0 := k, start := s.wpu.wmax, record := some r, disp := d, fill := 0, count := 0 }
          totals := if d = .refused .uncaptured then
              { l.totals with uncaptured := min 4294967295 (l.totals.uncaptured + 1) }
            else l.totals } ∧
        t.frt = (evaluate [c] (fun _ => true) { u with tgn := t.tgn, lnb := t.lnb, frt := { u.frt with
          entries := match d with
            | .placed _ _ _ => bumpEntry .placed c r.w u.frt.entries
            | .refused .overlong => bumpEntry .overlong c r.w u.frt.entries
            | .refused _ => u.frt.entries } }).frt
    (∀ pre r post, (s.tgn.get c).ptq = pre ++ r :: post →
      (∀ x ∈ pre, (x.seq.toNat + l.ringOfs) % lines ≠ k) → (r.seq.toNat + l.ringOfs) % lines = k →
      let bypass (u : State) (x : TrigRec) : State :=
        raiseReport (.lineFault c .bypassed ((x.seq.toNat + l.ringOfs) % lines))
          (evaluate [c] (fun _ => true) { u with
            tgn := u.tgn.set c { u.tgn.get c with ptq := (u.tgn.get c).ptq.drop 1 }
            frt := { u.frt with entries := bumpEntry .expired c x.w u.frt.entries } })
      let t := newLineRunning p c k s
      t.tgn = s.tgn.set c { s.tgn.get c with ptq := post } ∧ bound (pre.foldl bypass s) r l t) ∧
      ((∀ x ∈ (s.tgn.get c).ptq, (x.seq.toNat + l.ringOfs) % lines ≠ k) →
        let t := newLineRunning p c k s
        t.tgn = s.tgn ∧ t.frt = s.frt ∧
          t.lnb = s.lnb.set c { l with
            unmatched := l.unmatched + 1
            ctx := some { k0 := k, start := s.wpu.wmax, record := none, disp := .refused .unmatched, fill := 0,
                          count := 0 }
            totals := { l.totals with unmatched := min 4294967295 (l.totals.unmatched + 1) } }) ∧
      (let refused (kind : FaultKind) : Line :=
         { k0 := k, start := s.wpu.wmax, record := none, disp := .refused kind, fill := 0, count := 0 }
       let t := newLine p c k s
       (s.pfl.loader = .loading →
         t.tgn = s.tgn ∧ t.frt = s.frt ∧ t.lnb = s.lnb.set c { l with
           ctx := some (refused .loading)
           totals := { l.totals with loading := min 4294967295 (l.totals.loading + 1) } }) ∧
         (s.pfl.loader ≠ .loading → l.state = .fenced →
           t.tgn = s.tgn ∧ t.frt = s.frt ∧ t.lnb = s.lnb.set c { l with
             ctx := some (refused .fenced)
             totals := { l.totals with fenced := min 4294967295 (l.totals.fenced + 1) } }) ∧
         (s.pfl.loader ≠ .loading → l.state = .resync → (s.tgn.get c).ptq = [] →
           t.tgn = s.tgn ∧ t.frt = s.frt ∧ t.lnb = s.lnb.set c { l with
             ctx := some (refused .unmatched)
             totals := { l.totals with unmatched := min 4294967295 (l.totals.unmatched + 1) } }) ∧
         (∀ r rest, s.pfl.loader ≠ .loading → l.state = .resync → (s.tgn.get c).ptq = r :: rest → 0 < lines →
           t.tgn = s.tgn.set c { s.tgn.get c with ptq := rest } ∧
             ∃ ofs < lines, (ofs + r.seq.toNat) % lines = k % lines ∧
               bound s r { l with state := .running, ringOfs := ofs } t) ∧
         (s.pfl.loader ≠ .loading → l.state = .running → t = newLineRunning p c k s))

/-! ## Chapter 5 -/

/-- The frame request (R77 to R79): with no entry containing w it is refused UNCAPTURED; the first entry that contains
it gives row (distance from m_s to w) div LP, refused OVERLONG at or beyond ROWS, else PLACED with the entry's serial
and slot. -/
def Obligations.FrameRequestChoosesFrameAndRow : Prop :=
  ∀ (s : State) (p : Profile) (w : Pos),
    ((∀ e ∈ s.frt.entries, e.contains w = false) → s.frameRequest p w = .refused .uncaptured) ∧
      ∀ pre e post, s.frt.entries = pre ++ e :: post → (∀ x ∈ pre, x.contains w = false) → e.contains w = true →
        0 ≤ sdist e.ms w ∧
          s.frameRequest p w =
            if p.rows ≤ (sdist e.ms w).toNat / p.lp then .refused .overlong
            else .placed e.serial e.slot ((sdist e.ms w).toNat / p.lp)

/-- Pixel conversion (Table 5-2). NARROW writes the one byte min(255, (L + 256 H) div 2^SHIFT_c) (R86): with SHIFT 8
that is H, and with SHIFT 0 every value above 255 is written as 255. PASS writes the bytes as received and
BYTE_EXCHANGE in exchanged order. -/
def Obligations.PixelConversion : Prop :=
  ∀ (q : ChanProfile) (l h : Byte),
    (q.format = .narrow →
      q.convert [l, h] = [BitVec.ofNat 8 (min 255 ((l.toNat + 256 * h.toNat) / 2 ^ q.shift))] ∧
        (q.shift = 8 → q.convert [l, h] = [h]) ∧
        (q.shift = 0 → 255 < l.toNat + 256 * h.toNat → q.convert [l, h] = [255])) ∧
      (q.format = .pass → q.convert [l, h] = [l, h] ∧ q.convert [l] = [l]) ∧
      (q.format = .byteExchange → q.convert [l, h] = [h, l])

/-- The output of a sub-piece is cut at every 4 KiB boundary strictly inside it (R90): the writes hold the bytes with
none repeated or missing, at consecutive ascending addresses, each within one page, and an output of at most 4,096
bytes yields one write, or two when a boundary falls inside it. What is cut: of the valid bytes from b on, the whole
pixels are taken, half pixels and the unpaired last byte dropped (R81, R82), and those in TRIM_LO to TRIM_HI − 1 kept
(R83); none kept gives no write (R84). Kept pixels run from lo up to, not including, hi. They are written, converted,
from column COL_BASE + (lo − TRIM_LO) up in their order, and with mirror from column COL_BASE + (TRIM_HI − hi) up in
descending order (R87, R88), the first byte at SLOT_BASE + slot × SLOT_STRIDE + 64 + row × ROW_BYTES + column × S_out in
64-bit arithmetic (R89). The bytes counted as misaligned are the pixel bytes that belong to no whole pixel of the
sub-piece (R82). -/
def Obligations.OutputIsCutAtPageBoundaries : Prop :=
  (∀ (p : Profile) (q : ChanProfile) (slot row b : Nat) (data : List Byte),
    q.sIn = 1 ∨ q.sIn = 2 → b + data.length ≤ q.lineBytes →
    let lines := q.lineBytes / q.sIn
    let first := (b + q.sIn - 1) / q.sIn
    let last := min ((b + data.length) / q.sIn) lines
    let lo := max first q.trimLo
    let hi := min last q.trimHi
    let x (i : Nat) := if q.mirror then hi - 1 - i else lo + i
    let column := if q.mirror then q.colBase + (q.trimHi - hi) else q.colBase + (lo - q.trimLo)
    let bytes := ((List.range (hi - lo)).map fun i => q.convert ((data.drop (x i * q.sIn - b)).take q.sIn)).flatten
    let a := p.slotBase + slot * p.slotStride + 64 + row * p.rowBytes + column * q.sOut
    (placeSubPiece p q slot row b data).1 = (if hi ≤ lo then [] else cutPages bytes.length (a % 2 ^ 64) bytes) ∧
      (placeSubPiece p q slot row b data).2 =
        min data.length (q.sIn * lines - b) - q.sIn * (last - first)) ∧
  ∀ (a : Nat) (data : List Byte), data ≠ [] → a + data.length ≤ 2 ^ 64 →
    let ws := cutPages data.length a data
    (ws.map (·.data)).flatten = data ∧
      (∀ i w, ws[i]? = some w →
        w.addr.toNat = a + ((ws.take i).map (·.data.length)).sum ∧ 0 < w.data.length ∧
          w.addr.toNat % 4096 + w.data.length ≤ 4096) ∧
      (data.length ≤ 4096 → ws.length = if a % 4096 + data.length ≤ 4096 then 1 else 2)

/-! ## Chapter 6 -/

/-- A mark at the frame table. Bound (R99, R106): an OPEN newest entry is BOUNDED at the mark; one bounded by a
lock-loss bound strictly past the mark has its end mark moved back to the mark, its end kind kept; any other newest
entry, and every older one, is left. Open or skip (R100, R103, R104): with the hold state FREE, no drain and a slot
free, one entry is appended, OPEN, at the mark, with the serial, in the first free slot from the slot pointer upward;
the pointer goes one past it, and its 64-byte header at the slot's base joins the write list (R117); otherwise no entry
is opened and the table, the pointer and the list stay. With AUTO_RESYNC = ON an opening also moves every FENCED channel
to RESYNC with an EMPTY context, kL NONE and unmatched count 0, and then CHANNEL_FENCED is delivered as not holding
(R70). A delivered mark (R99): the serial rises by one modulo 2^32, the newest entry is bounded, the entry is opened or
the frame skipped, and last the completion rule is evaluated for the entry that became BOUNDED, if one did
(CompletionRuleClosesEntries says what that does). -/
def Obligations.MarkBoundsAndOpensOrSkips : Prop :=
  ∀ (s : State) (p : Profile) (m : Mark),
    (∀ es e, s.frt.entries = es ++ [e] →
      (e.fin = none →
        (boundAtMark m s).1.frt.entries =
          es ++ [{ e with fin := some (m.pos, if m.synth then .synthesized else .real) }]) ∧
        (∀ me kind, e.fin = some (me, kind) → kind = .lockLossWindow ∨ kind = .lockLossReversal →
          1 ≤ sdist m.pos me →
          (boundAtMark m s).1.frt.entries = es ++ [{ e with fin := some (m.pos, kind) }]) ∧
        (∀ me kind, e.fin = some (me, kind) →
          (kind = .real ∨ kind = .synthesized ∨ sdist m.pos me ≤ 0) → (boundAtMark m s).1 = s)) ∧
      (∀ j, s.frt.held = false → s.draining = false → p.autoResync = false → s.findSlot p = some j →
        ∃ item, item.kind = .header ∧ item.slot = j ∧ item.serial = s.frt.serial ∧
          item.writes.map (fun w => (w.addr, w.data.length)) = [(addr64 (p.slotBase + j * p.slotStride), 64)] ∧
          openOrSkip p m s = { s with frt := { s.frt with
            entries := s.frt.entries ++
              [{ serial := s.frt.serial, slot := j, ms := m.pos, startSynth := m.synth, fin := none,
                 linkReset := false, done := .all false,
                 counts := .all { placed := 0, short := 0, overlong := 0, expired := 0, skipped := 0 },
                 header := item }]
            slotPtr := (j + 1) % p.slots
            writeList := s.frt.writeList ++ [item] } }) ∧
      (∀ j, s.frt.held = false → s.draining = false → p.autoResync = true → s.findSlot p = some j →
        let t := openOrSkip p m s
        let off := openOrSkip { p with autoResync := false } m s
        t.frt = off.frt ∧
          (∀ c, t.lnb.get c =
            if (s.lnb.get c).state = .fenced then
              { s.lnb.get c with state := .resync, ctx := none, kL := none, unmatched := 0 }
            else s.lnb.get c) ∧
          t.sau.cond = (if s.anyFenced then { s.sau.cond with channelFenced := false } else s.sau.cond) ∧
          t.sau.flags.channelFenced = (s.sau.flags.channelFenced && (!s.anyFenced || s.alertLatch)) ∧
          t.tgn = s.tgn ∧ t.rpu = s.rpu ∧ t.egu = s.egu ∧ t.mkt = s.mkt ∧ t.wpu = s.wpu ∧ t.pfl = s.pfl) ∧
      (s.profile = some p →
        let u := { s with frt := { s.frt with serial := s.frt.serial + 1 } }
        (∀ es e, s.frt.entries = es ++ [e] → e.fin = none →
          deliverMark m s = evaluate Ch.all (fun x => x.serial == e.serial)
            (openOrSkip p m { u with frt := { u.frt with
              entries := es ++ [{ e with fin := some (m.pos, if m.synth then .synthesized else .real) }] } })) ∧
          ((∀ es e, s.frt.entries = es ++ [e] → e.fin.isSome) →
            deliverMark m s = openOrSkip p m (boundAtMark m u).1)) ∧
      (s.frt.held = true ∨ s.draining = true ∨ s.findSlot p = none →
        (openOrSkip p m s).frt = s.frt ∧ (openOrSkip p m s).lnb = s.lnb) ∧
      (∀ j, s.findSlot p = some j → j < p.slots ∧ s.slotFree j = true) ∧
      ∀ i j, s.findSlot p = some j → i < p.slots → s.slotFree ((s.frt.slotPtr + i) % p.slots) = true →
        ∃ i' ≤ i, j = (s.frt.slotPtr + i') % p.slots

/-- Closure (R114, R118): the trailer item joins the tail of the write list with the entry's slot and serial, 128 bytes
in one write or in two of 64 at T and T + 64, its first and last four bytes the serial (R178); and the entry leaves the
table, every other entry staying. The STATUS period count rises by one, and at STATUS_PERIOD or more becomes 0 with a
STATUS event (R147), which waits for its own row (the model's choice, log 13); with STATUS_PERIOD = 0 it is 0 and there
is no event, a count carried over an activation becoming 0 here (the model's reading, log 22). -/
def Obligations.ClosureQueuesTheTrailer : Prop :=
  ∀ (s : State) (p : Profile) (e : FrameEntry) (me : Pos) (kind : EndKind), e.fin = some (me, kind) →
    ∃ item, item.kind = .trailer ∧ item.slot = e.slot ∧ item.serial = e.serial ∧
      (let bytes := (item.writes.map (·.data)).flatten
       bytes.length = 128 ∧ bytes.take 4 = leBytes 4 e.serial.toNat ∧ bytes.drop 124 = leBytes 4 e.serial.toNat) ∧
      (let at0 := p.slotBase + e.slot * p.slotStride + 64 + p.rows * p.rowBytes
       (item.writes.map fun w => (w.addr, w.data.length)) =
         if (64 + p.rows * p.rowBytes) % 4096 = 4032 then [(addr64 at0, 64), (addr64 (at0 + 64), 64)]
         else [(addr64 at0, 128)]) ∧
      (closeEntry p e s).frt.writeList = s.frt.writeList ++ [item] ∧
      (closeEntry p e s).frt.entries = s.frt.entries.filter (fun x => x != e) ∧
      (closeEntry p e s).frt.serial = s.frt.serial ∧ (closeEntry p e s).frt.slotPtr = s.frt.slotPtr ∧
      (closeEntry p e s).rpu.statusCount =
        (if p.statusPeriod = 0 ∨ p.statusPeriod ≤ s.rpu.statusCount + 1 then 0 else s.rpu.statusCount + 1) ∧
      (closeEntry p e s).rpu.statusDue =
        (if p.statusPeriod ≠ 0 ∧ p.statusPeriod ≤ s.rpu.statusCount + 1 then s.rpu.statusDue + 1
         else s.rpu.statusDue)

/-- The completion rule (R111 to R114). An evaluation for the channels cs, of the entries sel takes, sets an entry's
done flag for an enabled channel of cs exactly when the entry is BOUNDED, the channel's horizon WMAX − D_c is at or past
m_e, its pending-trigger queue is empty or has its head's w at or past m_e, and its context is not FILLING with
disposition PLACED and a record's w before m_e; a SET flag stays SET and nothing else of an entry changes (R113). Then
every BOUNDED entry done for every enabled channel closes: it leaves the table, and its trailer joins the tail of the
write list, in the order of the entries (R114). The frame serial, the slot pointer, the hold state and every other block
but the Report Unit and the SAU, which take the FRAME_DONE reports, stay. -/
def Obligations.CompletionRuleClosesEntries : Prop :=
  ∀ (s : State) (p : Profile) (cs : List Ch) (sel : FrameEntry → Bool), s.profile = some p →
    let t := evaluate cs sel s
    let done (e : FrameEntry) (c : Ch) : Prop :=
      (p.ch.get c).enable = true ∧ ∃ me kind, e.fin = some (me, kind) ∧
        0 ≤ sdist me (s.wpu.wmax - BitVec.ofNat 40 (p.ch.get c).stagger) ∧
        (∀ r rest, (s.tgn.get c).ptq = r :: rest → 0 ≤ sdist me r.w) ∧
        ∀ n serial slot row r, (s.lnb.get c).ctx = some n → n.disp = .placed serial slot row → n.record = some r →
          0 ≤ sdist me r.w
    let complete (e : FrameEntry) : Bool :=
      e.fin.isSome && Ch.all.all fun c => !(p.ch.get c).enable || e.done.get c
    (∃ es, List.Forall₂ (fun e e' =>
        (sel e = false → e' = e) ∧
          (sel e = true → e' = { e with done := e'.done } ∧
            ∀ c, e'.done.get c = true ↔ e.done.get c = true ∨ (c ∈ cs ∧ done e c))) s.frt.entries es ∧
        t.frt.entries = es.filter (fun e => !complete e) ∧
        ∃ items, t.frt.writeList = s.frt.writeList ++ items ∧
          items.map (fun i => (i.kind, i.slot, i.serial)) =
            (es.filter complete).map fun e => (.trailer, e.slot, e.serial)) ∧
      t.frt.serial = s.frt.serial ∧ t.frt.slotPtr = s.frt.slotPtr ∧ t.frt.held = s.frt.held ∧ t.wpu = s.wpu ∧
      t.mkt = s.mkt ∧ t.tgn = s.tgn ∧ t.lnb = s.lnb ∧ t.egu = s.egu ∧ t.pfl = s.pfl ∧ t.pins = s.pins

/-! ## Chapter 7 -/

/-- GRABBER_REQUEST_ACCEPT (R124): with the ingress IDLE and the flow control OPEN a request is held whole, classified
by Table 7-2, and the flow control stops (R128); otherwise it is no event (the model's choice, log 3). A request that
R123 says the grabber never makes is refused by name, in every state (the model's choice, log 20). -/
def Obligations.GrabberRequestIsAccepted : Prop :=
  ∀ (s : State) (r : Request),
    (s.ready = true → r.fromGrabber = true → s.egu.ingress = none → s.egu.flowOpen = true →
      exec (.grabberRequestAccept r) s = .next { s with egu := { s.egu with
        ingress := some { req := r, steers := r.kind == .memWrite && s.touchesAperture r.addr.toNat r.len,
                          addr := r.addr.toNat, data := r.data }
        flowOpen := false } }) ∧
      (s.ready = true → r.fromGrabber = true → s.egu.ingress.isSome ∨ s.egu.flowOpen = false →
        exec (.grabberRequestAccept r) s = .next s) ∧
      (r.fromGrabber = false → exec (.grabberRequestAccept r) s = .refused .malformedGrabberRequest)

/-- PASS_THROUGH_ADMISSION, granted (R127, R129): one entry of origin GRABBER joins the tail, the whole request
unchanged, or the part's bytes at their original address; the ingress goes on with what remains. -/
def Obligations.PassThroughIsAdmittedUnchanged : Prop :=
  ∀ (s : State) (g : Ingress) (n : Nat), s.ready = true → s.ingressGrant = some g → s.nextPart g = .pass n →
    ∃ t, exec .passThroughAdmission s = .next t ∧
      t = { s with egu := { s.egu with
        egress := s.egu.egress ++
          [if g.steers then
             { origin := .grabber, kind := .memWrite, addr := addr64 g.addr, len := n, data := g.data.take n }
           else
             { origin := .grabber, kind := g.req.kind, addr := g.req.addr, len := g.req.len, data := g.req.data }]
        ingress := if g.data.drop n = [] then none else some { g with addr := g.addr + n, data := g.data.drop n }
        flowOpen := t.flowMayOpen } }

/-- The arbiter's order (R126): FRAME_ITEM_ADMISSION admits the head item whole, its writes in order, when the link is
UP and the queue has an entry for each; while an item waits neither the report writer nor the ingress is granted, and
while the writer has a pending write the ingress is not. -/
def Obligations.FrameItemsComeFirst : Prop :=
  ∀ s : State, s.ready = true →
    (∀ i rest, s.frt.writeList = i :: rest →
      (s.egu.hostUp = true → i.writes.length + s.egu.egress.length ≤ 64 →
        ∃ t, exec .frameItemAdmission s = .next t ∧
          t = { s with
            frt := { s.frt with writeList := rest }
            egu := { s.egu with
              egress := s.egu.egress ++ i.writes.map (fun w =>
                { origin := .frame, kind := .memWrite, addr := w.addr, len := w.data.length, data := w.data })
              flowOpen := t.flowMayOpen } }) ∧
        exec .reportRecordAdmission s = .next s ∧ exec .messageInterrupt s = .next s ∧
        exec .pieceAdmission s = .next s ∧ exec .passThroughAdmission s = .next s) ∧
      (∀ g, s.frt.writeList = [] → s.rpu.writer = some g →
        exec .pieceAdmission s = .next s ∧ exec .passThroughAdmission s = .next s)

/-- EGRESS_SEND with the link UP (R125): the head entry leaves and the next becomes the head. DOWNSTREAM_REQUEST with
the link UP and room (R130): the request joins the tail unmodified. DOWNSTREAM_SEND with the grabber link RUNNING and
trained (R130; trained is the model's reading, log 15): the head leaves. Nothing else changes but the flow control
that R128 re-evaluates. -/
def Obligations.QueuesAreFirstInFirstOut : Prop :=
  ∀ s : State, s.ready = true →
    (∀ e rest, s.egu.hostUp = true → s.egu.egress = e :: rest →
      ∃ t, exec .egressSend s = .next t ∧
        t = { s with egu := { s.egu with egress := rest, flowOpen := t.flowMayOpen } }) ∧
      (∀ r, s.egu.hostUp = true → s.egu.downstream.length < 32 →
        exec (.downstreamRequest r) s =
          .next { s with egu := { s.egu with downstream := s.egu.downstream ++ [r] } }) ∧
      (∀ r rest, s.egu.grabberRunning = true → s.egu.trained = true → s.egu.downstream = r :: rest →
        exec .downstreamSend s = .next { s with egu := { s.egu with downstream := rest } })

/-- HOST_LINK_FIRST_UP before the link has been UP, and HOST_LINK_RETURN after a host-link reset (R133, R136; which of
the two the rise is, log 16): the host link is UP and the grabber link RUNNING provided the loader has left
LOADING_INITIAL. GRABBER_LINK_TRAINED with the link RUNNING, and GRABBER_LINK_LOSS of a trained link with the host
link UP, which discards the downstream queue and keeps the rest (R137). Each re-evaluates the flow control (R128). That
a link trains only when RUNNING and is lost only when trained is the model's reading (log 14). -/
def Obligations.LinkEvents : Prop :=
  ∀ s : State, s.ready = true →
    (∀ c, (c = .hostLinkFirstUp ∧ s.egu.hostRisen = false ∨ c = .hostLinkReturn ∧ s.egu.hostRisen = true) →
      s.egu.hostUp = false →
      ∃ t, exec c s = .next t ∧
        t = { s with egu := { s.egu with
          hostUp := true, hostRisen := true
          grabberRunning := s.egu.grabberRunning || s.pfl.loader != .loadingInitial
          flowOpen := t.flowMayOpen } }) ∧
      (s.egu.grabberRunning = true →
        ∃ t, exec .grabberLinkTrained s = .next t ∧
          t = { s with egu := { s.egu with trained := true, flowOpen := t.flowMayOpen } }) ∧
      (s.egu.hostUp = true → s.egu.trained = true →
        exec .grabberLinkLoss s =
          .next { s with egu := { s.egu with trained := false, downstream := [], flowOpen := false } })

/-- HOST_LINK_RESET with the link UP (R134, R76, R49, R121, R151): both links down, every queue of the EGU and the
request in progress gone, the flow control STOPPED; every live entry has its link-reset flag SET; every enabled
channel that is not FENCED is in RESYNC with an EMPTY context, kL NONE, unmatched count 0, its ring offset kept and its
queue emptied, and every other channel is untouched; the MKT, the WPU, the loader, the countdowns, the pulses, the
counters, the frame serial, the hold state and the report seq are kept. That the grabber link is untrained by the reset
is the model's reading (log 14). Every live entry stays with its serial, slot, marks, end kind and header, or, where a
notice of the reset completes it, closes with its trailer on the write list; no entry appears (R121). The header of each
live entry that is not on the write list is repeated at its tail (R135). Each discarded report record adds one to the
dropped count, up to 65,535, and sets REPORTS_DROPPED; a discarded message adds nothing (R135). A message whose records
have been admitted is cancelled, and a group with records to come is kept (R151). -/
def Obligations.HostLinkReset : Prop :=
  ∀ s : State, s.ready = true → s.egu.hostUp = true →
    ∃ t, exec .hostLinkReset s = .next t ∧
      t.egu = { s.egu with hostUp := false, grabberRunning := false, trained := false, egress := [],
                           ingress := none, downstream := [], flowOpen := false } ∧
      (∀ e ∈ t.frt.entries, e.linkReset = true) ∧ t.frt.serial = s.frt.serial ∧ t.frt.slotPtr = s.frt.slotPtr ∧
      t.frt.held = s.frt.held ∧ t.mkt = s.mkt ∧ t.wpu = s.wpu ∧ t.pfl = s.pfl ∧ t.pins = s.pins ∧
      t.rpu.seq = s.rpu.seq ∧
      t.rpu.writer = s.rpu.writer.bind (fun g => if g.records = [] then none else some g) ∧
      (let lost := (s.egu.egress.filter fun e => e.origin == .report && e.len == 32).length
       (s.rpu.dropped ≤ 65535 → min 65535 (s.rpu.dropped + lost) ≤ t.rpu.dropped) ∧
         (s.rpu.dropped ≤ 65535 → s.rpu.queue.length < 16 →
           (∀ c, (s.lnb.get c).ctx = none ∧ (s.tgn.get c).ptq = []) →
           t.rpu.dropped = min 65535 (s.rpu.dropped + lost)) ∧
         (0 < lost → t.sau.flags.reportsDropped = true)) ∧
      (let same (e e' : FrameEntry) : Prop :=
         e'.serial = e.serial ∧ e'.slot = e.slot ∧ e'.ms = e.ms ∧ e'.startSynth = e.startSynth ∧ e'.fin = e.fin ∧
           e'.header = e.header
       ∃ items, (∀ i ∈ items, i.kind = .trailer) ∧
         t.frt.writeList = s.frt.writeList ++
           (s.frt.entries.filter fun e =>
             !s.frt.writeList.any fun i => i.kind == .header && i.serial == e.serial && i.slot == e.slot).map
             (·.header) ++ items ∧
         (∀ e ∈ s.frt.entries, (∃ e' ∈ t.frt.entries, same e e') ∨
           e.fin.isSome ∧ ∃ i ∈ items, i.slot = e.slot ∧ i.serial = e.serial) ∧
         ∀ e' ∈ t.frt.entries, ∃ e ∈ s.frt.entries, same e e') ∧
      ∀ c,
        (s.enabled c = true → (s.lnb.get c).state ≠ .fenced →
          (t.lnb.get c).state = .resync ∧ (t.lnb.get c).ctx = none ∧ (t.lnb.get c).kL = none ∧
            (t.lnb.get c).unmatched = 0 ∧ (t.lnb.get c).ringOfs = (s.lnb.get c).ringOfs ∧
            t.tgn.get c = { s.tgn.get c with ptq := [] }) ∧
          (s.enabled c = false ∨ (s.lnb.get c).state = .fenced →
            t.lnb.get c = s.lnb.get c ∧ t.tgn.get c = s.tgn.get c)

/-! ## Chapter 8 -/

/-- A report event at the Report Unit. With no profile active it is discarded (R138). A LINE_FAULT whose folding flag
is SET is folded: nothing changes; the first sets the flag (R140). A priority at or below REPORT_THRESHOLD discards
the event, and above it the report, stamped with TIME and the low 32 bits of WMAX, joins the queue (R138, R139). A
drop sets REPORTS_DROPPED, and without one it stays (R142). The report queue (R141, R142): a report is inserted behind
every one of its own priority or higher and ahead of every one of lower. At a queue of 16 the newest report of the
lowest priority gives way to a higher one, else the new report is discarded; either way one is dropped and the count
rises by one, saturating. That a waiting START report has no place of its own against one of higher priority is the
model's reading of R141 over R150 and R167 (log 36). -/
def Obligations.ReportsJoinInOrderOfPriority : Prop :=
  (∀ (ev : ReportEvent) (s : State),
    (s.profile = none → admitReport ev s = (s, false)) ∧
      (∀ p, s.profile = some p →
        let priority := match ev with
          | .start _ _ _ => p.pri.start
          | .profile _ _ _ _ => p.pri.profile
          | .lock _ _ _ _ _ _ => p.pri.lock
          | .channel _ _ _ => p.pri.channel
          | .alert _ _ => p.pri.alert
          | .frameDone _ _ _ => p.pri.frameDone
          | .frameSkipped _ _ _ _ => p.pri.frameSkipped
          | .lineFault _ _ _ => p.pri.lineFault
          | .status => p.pri.status
        let report : Report :=
          { event := ev, priority := priority, time := s.wpu.time, wmaxLow := s.wpu.wmax.setWidth 32 }
        let passed (u : State) : Prop :=
          (priority ≤ p.reportThreshold → admitReport ev s = (u, false)) ∧
            (p.reportThreshold < priority → admitReport ev s = joinQueue report u)
        ((∀ c kind i, ev ≠ .lineFault c kind i) → passed s) ∧
          ∀ c kind i, ev = .lineFault c kind i →
            ((c, kind) ∈ s.rpu.folded → admitReport ev s = (s, false)) ∧
              ((c, kind) ∉ s.rpu.folded →
                passed { s with rpu := { s.rpu with folded := s.rpu.folded ++ [(c, kind)] } })) ∧
      ((admitReport ev s).2 = false → raiseReport ev s = (admitReport ev s).1) ∧
      (raiseReport ev s).sau.flags.reportsDropped = (s.sau.flags.reportsDropped || (admitReport ev s).2)) ∧
  ∀ (r : Report) (s : State),
    (s.rpu.queue.length < 16 → ∀ hi lo, s.rpu.queue = hi ++ lo → (∀ x ∈ hi, r.priority ≤ x.priority) →
      (∀ x ∈ lo, x.priority < r.priority) →
      joinQueue r s = ({ s with rpu := { s.rpu with queue := hi ++ r :: lo } }, false)) ∧
      (∀ q last, s.rpu.queue = q ++ [last] → q.length = 15 →
        (last.priority < r.priority → ∀ hi lo, q = hi ++ lo → (∀ x ∈ hi, r.priority ≤ x.priority) →
          (∀ x ∈ lo, x.priority < r.priority) →
          joinQueue r s =
            ({ s with rpu := { s.rpu with queue := hi ++ r :: lo, dropped := min 65535 (s.rpu.dropped + 1) } },
              true)) ∧
          (r.priority ≤ last.priority →
            joinQueue r s = ({ s with rpu := { s.rpu with dropped := min 65535 (s.rpu.dropped + 1) } }, true)))

/-- REPORT_GROUP_FORM (R144, R145, R146, R149): the head report leaves the queue and forms nine records when it is a
STATUS report and one otherwise; each record takes the next seq and is 32 bytes at REPORT_BASE + (seq mod
REPORT_ENTRIES) × 32, its first four bytes the seq, its dropped field the dropped count in the first and 0 in the
others; the report seq moves on by their number and the dropped count becomes 0; a message of MSG_DATA at MSG_ADDR
follows when the priority is at or above IRQ_LEVEL. Nothing else changes. -/
def Obligations.ReportGroupIsFormed : Prop :=
  ∀ (s : State) (p : Profile) (r : Report) (rest : List Report), s.inReset = false → s.profile = some p →
    s.rpu.writer = none → s.rpu.queue = r :: rest → s.egu.hostUp = true →
    ∃ g, exec .reportGroupForm s = .next { s with rpu := { s.rpu with
        queue := rest, writer := some g, seq := s.rpu.seq + BitVec.ofNat 32 g.records.length, dropped := 0 } } ∧
      g.records.length = (if r.event = .status then 9 else 1) ∧
      (∀ j w, g.records[j]? = some w →
        (let q := s.rpu.seq + BitVec.ofNat 32 j
         w.addr = addr64 (p.reportBase + q.toNat % p.reportEntries * 32) ∧ w.data.length = 32 ∧
           w.data.take 4 = leBytes 4 q.toNat ∧
           (w.data.drop 6).take 2 = leBytes 2 (if j = 0 then s.rpu.dropped else 0))) ∧
      g.message =
        (if p.irqLevel ≤ r.priority then some { addr := addr64 p.msgAddr, data := leBytes 4 p.msgData } else none)

/-- REPORT_RECORD_ADMISSION and MESSAGE_INTERRUPT, granted (R126, R145, R146): the group's next record, or its message
once its records are admitted, joins the tail as one entry of origin REPORT, and the writer goes on with the rest, IDLE
when neither a record nor a message remains. -/
def Obligations.RecordsAndMessageAreAdmitted : Prop :=
  ∀ (s : State) (g : WriteGroup), s.ready = true → s.rpu.writer = some g → s.egu.hostUp = true →
    s.frt.writeList = [] → s.egu.egress.length < 64 →
    (∀ w rest, g.records = w :: rest →
      ∃ t, exec .reportRecordAdmission s = .next t ∧
        t = { s with
          rpu := { s.rpu with
            writer := if rest = [] ∧ g.message = none then none else some { g with records := rest } }
          egu := { s.egu with
            egress := s.egu.egress ++
              [{ origin := .report, kind := .memWrite, addr := w.addr, len := w.data.length, data := w.data }]
            flowOpen := t.flowMayOpen } }) ∧
      (∀ w, g.records = [] → g.message = some w →
        ∃ t, exec .messageInterrupt s = .next t ∧
          t = { s with
            rpu := { s.rpu with writer := none }
            egu := { s.egu with
              egress := s.egu.egress ++
                [{ origin := .report, kind := .memWrite, addr := w.addr, len := w.data.length, data := w.data }]
              flowOpen := t.flowMayOpen } })

/-- STATUS_EVENT, due (R148): all 32 folding flags become CLEAR, and the event passes the threshold with priority
PRI_STATUS: above it, with room in the queue, the report joins stamped with TIME and the low 32 bits of WMAX (R138);
at or below it nothing joins. That an event waits to be taken is the model's choice (log 13). -/
def Obligations.StatusEventClearsTheFolding : Prop :=
  ∀ (s : State) (p : Profile) (n : Nat), s.inReset = false → s.profile = some p → s.rpu.statusDue = n + 1 →
    (p.pri.status ≤ p.reportThreshold →
      exec .statusEvent s = .next { s with rpu := { s.rpu with folded := [], statusDue := n } }) ∧
      (p.reportThreshold < p.pri.status → s.rpu.queue.length < 16 →
        exec .statusEvent s = .next { s with rpu := { s.rpu with
          folded := [], statusDue := n
          queue := insertReport { event := .status, priority := p.pri.status, time := s.wpu.time,
                                  wmaxLow := s.wpu.wmax.setWidth 32 } s.rpu.queue } })

/-! ## Chapter 9 -/

/-- SPEED_INTERVAL_EXPIRY (R153, R154, R155): the sample joins the block sum, the block count rises by one, the raw
sample is 0 and the interval runs from the current TIME; with SLOW_SPEED = OFF the sample is compared with SPD_HI × 16
and SPD_LO × 16, with ON nothing is. SPEED_BLOCK_END (R154, R155): the average is (sum + SPD_AVG div 2) div SPD_AVG,
sum and count are 0, and with SLOW_SPEED = ON the average is compared. That a block count of SPD_AVG waits for the row
SPEED_BLOCK_END is the model's choice (log 2). -/
def Obligations.SpeedSamplesAndBlocks : Prop :=
  ∀ (s : State) (p : Profile), s.inReset = false → s.profile = some p →
    (∀ t0, s.sau.speedT0 = some t0 → elapsed s.wpu.time t0 = p.speedInterval →
      ∃ t, exec .speedIntervalExpiry s = .next t ∧ t.sau.raw = 0 ∧ t.sau.blockSum = s.sau.blockSum + s.sau.raw ∧
        t.sau.blockCount = s.sau.blockCount + 1 ∧ t.sau.speedT0 = some s.wpu.time ∧
        t.sau.speedAvg = s.sau.speedAvg ∧
        t.sau.cond = (if p.slowSpeed then s.sau.cond else { s.sau.cond with
          speedHigh := decide (p.spdHi * 16 < s.sau.raw), speedLow := decide (s.sau.raw < p.spdLo * 16) }) ∧
        t.mkt = s.mkt ∧ t.tgn = s.tgn ∧ t.lnb = s.lnb ∧ t.frt = s.frt ∧ t.egu = s.egu ∧ t.wpu = s.wpu ∧
        t.pfl = s.pfl) ∧
      (p.spdAvg ≤ s.sau.blockCount →
        ∃ t, exec .speedBlockEnd s = .next t ∧
          (let v := (s.sau.blockSum + p.spdAvg / 2) / p.spdAvg
           t.sau.speedAvg = v ∧
             t.sau.cond = (if p.slowSpeed then { s.sau.cond with
               speedHigh := decide (p.spdHi * 16 < v), speedLow := decide (v < p.spdLo * 16) } else s.sau.cond)) ∧
          t.sau.blockSum = 0 ∧ t.sau.blockCount = 0 ∧ t.sau.raw = s.sau.raw ∧ t.sau.speedT0 = s.sau.speedT0 ∧
          t.mkt = s.mkt ∧ t.tgn = s.tgn ∧ t.lnb = s.lnb ∧ t.frt = s.frt ∧ t.egu = s.egu ∧ t.wpu = s.wpu ∧
          t.pfl = s.pfl)

/-- A delivery of a condition (R156, R157): the held condition takes it and no other condition changes. Transparent,
or for PROFILE_FALLBACK, the flag follows it; latched, a delivery of holds sets the flag and one of not holding leaves
it. No other flag changes but REPORTS_DROPPED, which a dropped ALERT report may set (R142). -/
def Obligations.ConditionFlagsFollowOrLatch : Prop :=
  ∀ (c : Cond) (holds : Bool) (s : State),
    (deliver c holds s).sau.cond = s.sau.cond.put c holds ∧
      (s.alertLatch = false ∨ c = .profileFallback → (deliver c holds s).sau.flags.get c.flag = holds) ∧
      (s.alertLatch = true → c ≠ .profileFallback →
        (deliver c holds s).sau.flags.get c.flag = (holds || s.sau.flags.get c.flag)) ∧
      ∀ f, f ≠ c.flag → f ≠ .reportsDropped → (deliver c holds s).sau.flags.get f = s.sau.flags.get f

/-- CLEAR sampled at an increment of TIME (R159, R70): TIME increases by one. Sampled inactive, or active with the
reference ACTIVE, it only sets the reference. A CLEAR pulse clears the three event flags and, latched, every condition
flag but PROFILE_FALLBACK; transparent, the condition flags stay (CHANNEL_FENCED apart, which the fences' exit
delivers); every FENCED channel moves to RESYNC with an EMPTY context, kL NONE and unmatched count 0; no report is
raised and no other block changes. That the command is an increment of TIME and brings the level that is sampled is
the model's choice (log 10), and so is that the sample is taken before what falls due at the new TIME (log 37). -/
def Obligations.ClearPulse : Prop :=
  ∀ (s : State) (l : Bool), s.ready = true →
    (l = false ∨ s.sau.clearRef = true →
      exec (.clearPulse l) s = .next
        { s with pins := { s.pins with clear := l }, wpu := { s.wpu with time := s.wpu.time + 1 },
                 sau := { s.sau with clearRef := l } }) ∧
      (l = true → s.sau.clearRef = false →
        ∃ t, exec (.clearPulse l) s = .next t ∧ t.sau.clearRef = true ∧
          t.sau.flags.lockLost = false ∧ t.sau.flags.encoder = false ∧ t.sau.flags.reportsDropped = false ∧
          t.sau.flags.profileFallback = s.sau.flags.profileFallback ∧
          (s.alertLatch = true → t.sau.flags.speedHigh = false ∧ t.sau.flags.speedLow = false ∧
            t.sau.flags.repeatLong = false ∧ t.sau.flags.repeatShort = false ∧ t.sau.flags.channelFenced = false) ∧
          (s.alertLatch = false → t.sau.flags.speedHigh = s.sau.flags.speedHigh ∧
            t.sau.flags.speedLow = s.sau.flags.speedLow ∧ t.sau.flags.repeatLong = s.sau.flags.repeatLong ∧
            t.sau.flags.repeatShort = s.sau.flags.repeatShort ∧
            t.sau.flags.channelFenced = (if s.anyFenced then false else s.sau.flags.channelFenced)) ∧
          t.sau.cond = (if s.anyFenced then { s.sau.cond with channelFenced := false } else s.sau.cond) ∧
          (∀ c, t.lnb.get c =
            if (s.lnb.get c).state = .fenced then
              { s.lnb.get c with state := .resync, ctx := none, kL := none, unmatched := 0 }
            else s.lnb.get c) ∧
          t.sau.alert = t.alertDue ∧ t.mkt = s.mkt ∧ t.tgn = s.tgn ∧ t.frt = s.frt ∧ t.rpu = s.rpu ∧ t.egu = s.egu ∧
          t.wpu = { s.wpu with time := s.wpu.time + 1 } ∧ t.pfl = s.pfl)

/-! ## Chapter 10 -/

/-- PSEL_CHANGE (R168): a new value starts the debounce from the current TIME and makes the refused value NONE.
PSEL_DEBOUNCE_EXPIRY at 10,000 µs (R168, R169, R170): the stable value takes the PSEL value v, the debounce is IDLE; a
request of v, when v is neither the refused value nor the active profile, makes v the target, with DRAINING from
RUNNING, AWAITING_STORE from FALLBACK, and the drain going on in DRAINING; in DRAINING the active profile's own number
cancels the drain; in the other states nothing more happens. -/
def Obligations.ProfileSelection : Prop :=
  ∀ s : State,
    (∀ v, s.ready = true → v ≠ s.pins.psel →
      exec (.pselChange v) s = .next
        { s with pins := { s.pins with psel := v },
                 pfl := { s.pfl with debounce := some s.wpu.time, refused := none } }) ∧
      ∀ t0, s.inReset = false → s.pfl.debounce = some t0 → elapsed s.wpu.time t0 = 10000 →
        let v := s.pins.psel
        let f := { s.pfl with pselStable := v, debounce := none }
        (s.pfl.loader = .draining → s.pfl.activeNumber = some v →
          exec .pselDebounceExpiry s = .next { s with pfl := { f with target := none, loader := .running } }) ∧
          (s.pfl.refused ≠ some v → s.pfl.activeNumber ≠ some v →
            s.pfl.loader = .running ∨ s.pfl.loader = .draining ∨ s.pfl.loader = .fallback →
            exec .pselDebounceExpiry s = .next { s with pfl := { f with
              target := some v
              loader := if s.pfl.loader = .fallback then .awaitingStore else .draining } }) ∧
          ((s.pfl.loader = .loadingInitial ∨ s.pfl.loader = .awaitingStore ∨ s.pfl.loader = .loading) ∨
            (s.pfl.loader ≠ .draining ∧ (s.pfl.refused = some v ∨ s.pfl.activeNumber = some v)) ∨
            (s.pfl.loader = .draining ∧ s.pfl.activeNumber ≠ some v ∧ s.pfl.refused = some v) →
            exec .pselDebounceExpiry s = .next { s with pfl := f })

/-- The end of a drain and the store's owners. DRAIN_END (R170): DRAINING with the frame table empty and no channel's
context FILLING with disposition PLACED, the loader enters AWAITING_STORE with the target it holds; while an entry is
live, or a context is FILLING with disposition PLACED, it does not; in another loader state it is no event (the model's
choice, log 3). Owners (R171, R172): SREQ going active while the store is FREE, and a FREE store with SREQ active,
give it to the programmer with SGNT active; SREQ going active while the loader owns it gets no grant; SREQ going
inactive while the programmer owns it makes it FREE with SGNT inactive; a FREE store in AWAITING_STORE goes to the
loader, which enters LOADING and begins the read's first transaction, the read command 03H with the address 0 for 64
bytes (R180). While the owner is FREE or PROGRAMMER the store port's outputs are high-impedance, and while it is LOADER
they are driven, SCS active while a transaction is in progress (R180). -/
def Obligations.DrainEndAndStoreSharing : Prop :=
  ∀ s : State,
    (s.inReset = false → s.pfl.loader = .draining → s.frt.entries = [] →
      (∀ c n, (s.lnb.get c).ctx = some n → ∃ k, n.disp = .refused k) →
      exec .drainEnd s = .next { s with pfl := { s.pfl with loader := .awaitingStore } }) ∧
      (s.inReset = false →
        s.pfl.loader ≠ .draining ∨ s.frt.entries ≠ [] ∨
          (∃ c n serial slot row, (s.lnb.get c).ctx = some n ∧ n.disp = .placed serial slot row) →
        exec .drainEnd s = .next s) ∧
      (s.ready = true → s.pins.sreq = false → s.pfl.owner = .free →
        exec .sreqAssert s = .next
          { s with pins := { s.pins with sreq := true }, pfl := { s.pfl with owner := .programmer, sgnt := true } }) ∧
      (s.ready = true → s.pins.sreq = false → s.pfl.owner = .loader →
        exec .sreqAssert s = .next { s with pins := { s.pins with sreq := true } }) ∧
      (s.ready = true → s.pins.sreq = true → s.pfl.owner = .programmer →
        exec .sreqRelease s = .next
          { s with pins := { s.pins with sreq := false }, pfl := { s.pfl with owner := .free, sgnt := false } }) ∧
      (s.inReset = false → s.pfl.owner = .free → s.pins.sreq = true →
        exec .storeGrant s = .next { s with pfl := { s.pfl with owner := .programmer, sgnt := true } }) ∧
      (s.inReset = false → s.pfl.owner = .free → s.pfl.loader = .awaitingStore →
        exec .loadingStart s = .next
          { s with pfl := { s.pfl with owner := .loader, loader := .loading, staging := none
                                       transaction := some { driven := [3, 0, 0], count := 64 } } }) ∧
      (s.pfl.owner = .free ∨ s.pfl.owner = .programmer → s.portDrive = .highImpedance) ∧
      (s.pfl.owner = .loader → (s.pfl.transaction = none → s.portDrive = .idle) ∧
        ∀ x, s.pfl.transaction = some x → s.portDrive = .transaction x)

/-- LOAD_READ_END of a load outside start-up whose checks pass (R171, R173): the staged profile is active, target,
refused value and staging copy are empty, the store is FREE; every countdown is TRG_PHASE + 1 or stopped and every
queue empty, pulses and counters kept (R51); every channel is RESYNC or DISABLED afresh with its totals kept (R75); the
MKT is in SEARCH with its counts kept (R34); the slot pointer is 0 and the serial kept (R103); the folding flags are
CLEAR (R152); the speed interval runs from now (R162); the WPU and the links are untouched (R15). That a line refused
LOADING loses its context with the rest is the model's reading of R75 over R68 (log 35). -/
def Obligations.AcceptedLoadBecomesActive : Prop :=
  ∀ (s : State) (n : BitVec 2) (header record : List Byte), s.ready = true → s.pfl.loader = .loading →
    s.pfl.target = some n → judge { header := header, record := record } n = none →
    ∃ t, exec (.loadReadEnd header record) s = .next t ∧
      (let p := decodeProfile record
       t.pfl.active = some { number := n, prof := p } ∧
         (∀ c, t.tgn.get c = { s.tgn.get c with
           countdown := if (p.ch.get c).enable then some ((p.ch.get c).trgPhase + 1) else none, ptq := [] }) ∧
         (∀ c, t.lnb.get c = { s.lnb.get c with
           state := if (p.ch.get c).enable then .resync else .disabled
           ctx := none, kL := none, ringOfs := 0, unmatched := 0 }) ∧
         t.mkt = { s.mkt with lock := .search, cand := none, newest := none, deferred := false, coasting := 0,
                              history := [], lAvg := p.lExp, markRef := s.pins.mark != p.markActiveLow,
                              edgePending := false }) ∧
      t.pfl.refused = none ∧ t.pfl.staging = none ∧ t.pfl.transaction = none ∧ t.pfl.owner = .free ∧
      (t.pfl.loader = .running ∧ t.pfl.target = none ∨
        t.pfl.loader = .draining ∧ t.pfl.target = some s.pfl.pselStable) ∧
      t.frt.slotPtr = 0 ∧ t.frt.serial = s.frt.serial ∧ t.rpu.folded = [] ∧ t.sau.speedT0 = some s.wpu.time ∧
      t.sau.raw = 0 ∧ t.sau.blockSum = 0 ∧ t.sau.blockCount = 0 ∧ t.sau.speedAvg = s.sau.speedAvg ∧
      t.sau.alert = t.alertDue ∧ t.wpu = s.wpu ∧ t.egu = s.egu ∧ t.pins = s.pins

/-- LOAD_READ_END of a load outside start-up that is refused. With a profile active (R174) it is kept, the refused
value is the target, and the MKT, the TGN and the LNB take the resets of an activation with the kept profile's
parameters (that a line refused LOADING loses its context with the rest: log 35), while the slot pointer, the speed unit
and the WPU are kept. With none active (R166) the loader is in
FALLBACK, or in AWAITING_STORE for a value the selector has moved on to meanwhile (R169), and PROFILE_FALLBACK
holds. -/
def Obligations.RefusedLoadKeepsTheActiveProfile : Prop :=
  ∀ (s : State) (n : BitVec 2) (header record : List Byte) (why : Reason), s.ready = true →
    s.pfl.loader = .loading → s.pfl.target = some n →
    judge { header := header, record := record } n = some why →
    ∃ t, exec (.loadReadEnd header record) s = .next t ∧ t.pfl.active = s.pfl.active ∧
      t.pfl.refused = some n ∧ t.pfl.staging = none ∧ t.pfl.transaction = none ∧ t.pfl.owner = .free ∧
      t.frt.slotPtr = s.frt.slotPtr ∧ t.frt.serial = s.frt.serial ∧ t.wpu = s.wpu ∧ t.egu = s.egu ∧ t.pins = s.pins ∧
      t.sau.speedT0 = s.sau.speedT0 ∧ t.sau.raw = s.sau.raw ∧ t.sau.blockSum = s.sau.blockSum ∧
      t.sau.blockCount = s.sau.blockCount ∧ t.sau.speedAvg = s.sau.speedAvg ∧
      (∀ a, s.pfl.active = some a →
        (∀ c, t.tgn.get c = { s.tgn.get c with
          countdown := if (a.prof.ch.get c).enable then some ((a.prof.ch.get c).trgPhase + 1) else none
          ptq := [] }) ∧
          (∀ c, t.lnb.get c = { s.lnb.get c with
            state := if (a.prof.ch.get c).enable then .resync else .disabled
            ctx := none, kL := none, ringOfs := 0, unmatched := 0 }) ∧
          t.mkt.lock = .search ∧ t.mkt.newest = none ∧ t.mkt.cand = none ∧ t.mkt.history = [] ∧
          t.rpu.folded = [] ∧ (t.pfl.loader = .running ∨ t.pfl.loader = .draining)) ∧
      (s.pfl.active = none →
        t.sau.cond.profileFallback = true ∧ t.sau.flags.profileFallback = true ∧ t.mkt = s.mkt ∧ t.tgn = s.tgn ∧
          t.lnb = s.lnb ∧ t.frt = s.frt ∧ (t.pfl.loader = .fallback ∨ t.pfl.loader = .awaitingStore))

/-- LOAD_READ_END in LOADING_INITIAL (R165, Table 10-4). Acceptable: the profile is active, the loader has left
LOADING_INITIAL and the store is FREE; the grabber link is RUNNING when the host link is UP (R133). Refused at the
first read for a target other than 0: its reason is recorded, the refused value is the target, and profile 0 is read
next, its first transaction begun (R180). An acceptable second read keeps the refused value: the model's reading of R165
and Table 10-4 over R173 (log 9). Refused with target 0, or at a second read: FALLBACK, or AWAITING_STORE for a value
the selector shows, with PROFILE_FALLBACK holding (R166). -/
def Obligations.StartUpLoadOutcomes : Prop :=
  ∀ (s : State) (n : BitVec 2) (header record : List Byte), s.ready = true → s.pfl.loader = .loadingInitial →
    s.pfl.target = some n →
    (judge { header := header, record := record } n = none →
      ∃ t, exec (.loadReadEnd header record) s = .next t ∧
        t.pfl.active = some { number := n, prof := decodeProfile record } ∧
        t.pfl.refused = (if s.pfl.firstReason.isSome then s.pfl.refused else none) ∧
        t.pfl.firstReason = s.pfl.firstReason ∧ t.pfl.owner = .free ∧ t.pfl.staging = none ∧
        t.pfl.transaction = none ∧
        (t.pfl.loader = .running ∨ t.pfl.loader = .draining) ∧
        t.egu.grabberRunning = (s.egu.grabberRunning || s.egu.hostUp) ∧ t.wpu = s.wpu ∧ t.pins = s.pins) ∧
      (∀ why, judge { header := header, record := record } n = some why → s.pfl.firstReason = none → n ≠ 0 →
        exec (.loadReadEnd header record) s = .next { s with pfl := { s.pfl with
          firstReason := some why, refused := some n, staging := none, target := some 0
          transaction := some { driven := [3, 0, 0], count := 64 } } }) ∧
      (∀ why, judge { header := header, record := record } n = some why → s.pfl.firstReason.isSome ∨ n = 0 →
        ∃ t, exec (.loadReadEnd header record) s = .next t ∧ t.pfl.active = s.pfl.active ∧ t.pfl.owner = .free ∧
          t.pfl.refused = (if s.pfl.firstReason.isSome then s.pfl.refused else some n) ∧ t.pfl.staging = none ∧
          t.pfl.transaction = none ∧
          t.sau.cond.profileFallback = true ∧ t.sau.flags.profileFallback = true ∧
          (t.pfl.loader = .fallback ∨ t.pfl.loader = .awaitingStore) ∧
          t.egu.grabberRunning = (s.egu.grabberRunning || s.egu.hostUp) ∧ t.wpu = s.wpu ∧ t.mkt = s.mkt ∧
          t.tgn = s.tgn ∧ t.lnb = s.lnb ∧ t.frt = s.frt)

/-- The judgement (R164, Table 10-2): a wrong version or count is refused VERSION, then a target not below the count
RANGE, then a record whose 64 words do not sum to 0 CHECKSUM; and an acceptable record meets the bounds the placement
rests on (Table 5-5): the slots hold a frame, no region wraps the address space, and for every enabled channel the ring,
the trim, the column span and the settle distance. The read clocks 67 bytes when the version, the count or the target
fails, and 326 otherwise (R180). -/
def Obligations.AcceptedProfilesMeetTheChecks : Prop :=
  ∀ (g : Staging) (n : BitVec 2),
    (¬(valueAt g.header 0 2 = 1 ∧ 1 ≤ valueAt g.header 2 1 ∧ valueAt g.header 2 1 ≤ 4) →
      judge g n = some .version) ∧
      (valueAt g.header 0 2 = 1 → 1 ≤ valueAt g.header 2 1 → valueAt g.header 2 1 ≤ 4 →
        (valueAt g.header 2 1 ≤ n.toNat → judge g n = some .range) ∧
          (n.toNat < valueAt g.header 2 1 →
            ((List.range 64).map fun i => valueAt g.record (4 * i) 4).sum % 2 ^ 32 ≠ 0 →
            judge g n = some .checksum)) ∧
      loadBytesClocked g.header n =
        (if valueAt g.header 0 2 = 1 ∧ 1 ≤ valueAt g.header 2 1 ∧ valueAt g.header 2 1 ≤ 4 ∧
          n.toNat < valueAt g.header 2 1 then 326 else 67) ∧
      (judge g n = none →
        (let p := decodeProfile g.record
         valueAt g.header 0 2 = 1 ∧ n.toNat < valueAt g.header 2 1 ∧
           ((List.range 64).map fun i => valueAt g.record (4 * i) 4).sum % 2 ^ 32 = 0 ∧
           1 ≤ p.slots ∧ p.slots ≤ 16 ∧ 1 ≤ p.lp ∧ p.lTol + p.markMin ≤ p.lExp ∧
           64 + p.rows * p.rowBytes + 128 ≤ p.slotStride ∧ p.slotBase + p.slots * p.slotStride ≤ 2 ^ 64 ∧
           p.reportBase + p.reportEntries * 32 ≤ 2 ^ 64 ∧
           ∀ c, (p.ch.get c).enable = true →
             64 ≤ (p.ch.get c).srcLines ∧ (p.ch.get c).srcLines ≤ 16384 ∧
               (p.ch.get c).trimLo < (p.ch.get c).trimHi ∧
               (p.ch.get c).trimHi ≤ (p.ch.get c).lineBytes / (p.ch.get c).sIn ∧
               ((p.ch.get c).colBase + (p.ch.get c).trimHi - (p.ch.get c).trimLo) * (p.ch.get c).sOut ≤ p.rowBytes ∧
               2 * p.lTol + p.markMin + 2 ≤ (p.ch.get c).stagger))

/-! ## Chapter 11 -/

/-- Multi-byte fields are little-endian (R176): the bytes of a value are as many as the field has, and reading them
back gives the value modulo the field's range. -/
def Obligations.FieldsAreLittleEndian : Prop :=
  ∀ (n v : Nat), (leBytes n v).length = n ∧ leNat (leBytes n v) = v % 256 ^ n ∧
    ∀ i b, (leBytes n v)[i]? = some b → b.toNat = v / 256 ^ i % 256

/-! ## Invariants that every step keeps -/

/-- Every invariant of Safety.lean holds at State.reset. -/
def Obligations.InvariantsHoldAtReset : Prop :=
  PositionInv State.reset ∧ LockInv State.reset ∧ TriggerQueueInv State.reset ∧ FrameTableInv State.reset ∧
    EgressInv State.reset ∧ LinkInv State.reset ∧ ReportQueueInv State.reset ∧ AlertInv State.reset ∧
    StoreInv State.reset ∧ ResetHeldInv State.reset

/-- Every step keeps the backlash depth the signed distance from WPOS to WMAX, and within its range (Table 1-1, R5).
Every command but a reset leaves TIME alone, which moves at idle steps (R11, log 4) and by one at a sample of CLEAR
outside a held reset (log 10), and never moves WMAX back (R5): it leaves it, or carries it one tick on, as an advance
does (R3). -/
def Obligations.StepKeepsThePosition : Prop :=
  (∀ s t, PositionInv s → step s = .next t → PositionInv t) ∧
    ∀ (c : Instr) (s t : State), c ≠ .powerOn → c ≠ .resetPin → exec c s = .next t →
      (∀ l, c = .clearPulse l → t.wpu.time = if s.inReset then s.wpu.time else s.wpu.time + 1) ∧
        ((∀ l, c ≠ .clearPulse l) → t.wpu.time = s.wpu.time) ∧
        (PositionInv s → t.wpu.wmax = s.wpu.wmax ∨ t.wpu.wmax = s.wpu.wmax + 1)

/-- Every step keeps the Mark Tracker's lock state in agreement with its newest mark, history and coasting count. -/
def Obligations.StepKeepsTheLock : Prop := ∀ s t, LockInv s → step s = .next t → LockInv t

/-- Every step keeps the laws of the pending-trigger queues. -/
def Obligations.StepKeepsTheTriggerQueues : Prop := ∀ s t, TriggerQueueInv s → step s = .next t → TriggerQueueInv t

/-- Every step keeps the laws of the frame table. -/
def Obligations.StepKeepsTheFrameTable : Prop := ∀ s t, FrameTableInv s → step s = .next t → FrameTableInv t

/-- Every step keeps the queues of the Egress Unit within their capacities, and every step keeps the link states, the
flow control and the held requests in agreement. -/
def Obligations.StepKeepsTheEgressUnit : Prop :=
  (∀ s t, EgressInv s → step s = .next t → EgressInv t) ∧ ∀ s t, LinkInv s → step s = .next t → LinkInv t

/-- Every step keeps the report queue within 16 reports and in order of priority, and every step keeps ALERT active
exactly while a flag in ALERT_MASK is SET. -/
def Obligations.StepKeepsReportsAndAlert : Prop :=
  (∀ s t, ReportQueueInv s → step s = .next t → ReportQueueInv t) ∧
    ∀ s t, AlertInv s → step s = .next t → AlertInv t

/-- Every step keeps SGNT, the store's owner and the store port's transaction in agreement, and while a reset is held
every step but its end leaves every block at its reset values. That State.reset is a held reset is the model's reading
(log 5), and that L_avg is 0, the PSEL stable value 0 and the first refusal reason none in it is the model's choice
(log 8). -/
def Obligations.StepKeepsTheStoreAndTheHeldReset : Prop :=
  (∀ s t, StoreInv s → step s = .next t → StoreInv t) ∧
    ∀ s t, ResetHeldInv s → step s = .next t → ResetHeldInv t

/-- The active profile changes only at the end of a load's read and at a reset (R163, R173): every other command leaves
it as it was, and so does every step that takes no such command, the microsecond of an empty queue among them. -/
def Obligations.OnlyALoadChangesTheProfile : Prop :=
  (∀ s t : State,
    (∀ c, s.pending.head? = some c → c ≠ .powerOn ∧ c ≠ .resetPin ∧ ∀ h r, c ≠ .loadReadEnd h r) →
    step s = .next t → t.pfl.active = s.pfl.active) ∧
  ∀ (c : Instr) (s t : State), c ≠ .powerOn → c ≠ .resetPin → (∀ h r, c ≠ .loadReadEnd h r) →
    exec c s = .next t → t.pfl.active = s.pfl.active
end

