-- ==== Sys2Proof/Laws/State.lean ====
section
/-! SUPPORT. The small lemmas of the state's updates: one lemma for each field of each update, and the reads and
writes of a four-fold record. -/

namespace Sys2Proof

/-! ## Four-fold records -/

@[simp] theorem Quad.get_all {α : Type} (v : α) (c : Ch) : (Quad.all v).get c = v := by cases c <;> rfl

@[simp] theorem Quad.get_of {α : Type} (f : Ch → α) (c : Ch) : (Quad.of f).get c = f c := by cases c <;> rfl

@[simp] theorem Quad.get_set_self {α : Type} (q : Quad α) (c : Ch) (v : α) : (q.set c v).get c = v := by
  cases c <;> rfl

theorem Quad.get_set_of_ne {α : Type} (q : Quad α) {c d : Ch} (v : α) (h : d ≠ c) : (q.set c v).get d = q.get d := by
  cases c <;> cases d <;> first | rfl | exact absurd rfl h

theorem Quad.get_set {α : Type} (q : Quad α) (c d : Ch) (v : α) :
    (q.set c v).get d = if d = c then v else q.get d := by
  cases c <;> cases d <;> rfl

@[simp] theorem Quad.set_get_self {α : Type} (q : Quad α) (c : Ch) : q.set c (q.get c) = q := by cases c <;> rfl

theorem Quad.ext_get {α : Type} {q r : Quad α} (h : ∀ c, q.get c = r.get c) : q = r := by
  cases q; cases r
  have h0 := h .ch0; have h1 := h .ch1; have h2 := h .ch2; have h3 := h .ch3
  simp only [Quad.get] at h0 h1 h2 h3
  simp [h0, h1, h2, h3]

/-- A property of every channel is one of the four. -/
theorem Ch.forall_mem_all (c : Ch) : c ∈ Ch.all := by cases c <;> decide

end Sys2Proof

namespace Sys2Proof.Machine

/-! ## Updates of the state -/

@[simp] theorem State.setTgn_inReset (s : State) (c : Ch) (t : Tgn) : (s.setTgn c t).inReset = s.inReset := rfl
@[simp] theorem State.setTgn_pins (s : State) (c : Ch) (t : Tgn) : (s.setTgn c t).pins = s.pins := rfl
@[simp] theorem State.setTgn_wpu (s : State) (c : Ch) (t : Tgn) : (s.setTgn c t).wpu = s.wpu := rfl
@[simp] theorem State.setTgn_mkt (s : State) (c : Ch) (t : Tgn) : (s.setTgn c t).mkt = s.mkt := rfl
@[simp] theorem State.setTgn_tgn (s : State) (c : Ch) (t : Tgn) : (s.setTgn c t).tgn = s.tgn.set c t := rfl
@[simp] theorem State.setTgn_lnb (s : State) (c : Ch) (t : Tgn) : (s.setTgn c t).lnb = s.lnb := rfl
@[simp] theorem State.setTgn_frt (s : State) (c : Ch) (t : Tgn) : (s.setTgn c t).frt = s.frt := rfl
@[simp] theorem State.setTgn_egu (s : State) (c : Ch) (t : Tgn) : (s.setTgn c t).egu = s.egu := rfl
@[simp] theorem State.setTgn_rpu (s : State) (c : Ch) (t : Tgn) : (s.setTgn c t).rpu = s.rpu := rfl
@[simp] theorem State.setTgn_sau (s : State) (c : Ch) (t : Tgn) : (s.setTgn c t).sau = s.sau := rfl
@[simp] theorem State.setTgn_pfl (s : State) (c : Ch) (t : Tgn) : (s.setTgn c t).pfl = s.pfl := rfl
@[simp] theorem State.setTgn_pending (s : State) (c : Ch) (t : Tgn) : (s.setTgn c t).pending = s.pending := rfl

@[simp] theorem State.setLnb_inReset (s : State) (c : Ch) (l : Lnb) : (s.setLnb c l).inReset = s.inReset := rfl
@[simp] theorem State.setLnb_pins (s : State) (c : Ch) (l : Lnb) : (s.setLnb c l).pins = s.pins := rfl
@[simp] theorem State.setLnb_wpu (s : State) (c : Ch) (l : Lnb) : (s.setLnb c l).wpu = s.wpu := rfl
@[simp] theorem State.setLnb_mkt (s : State) (c : Ch) (l : Lnb) : (s.setLnb c l).mkt = s.mkt := rfl
@[simp] theorem State.setLnb_tgn (s : State) (c : Ch) (l : Lnb) : (s.setLnb c l).tgn = s.tgn := rfl
@[simp] theorem State.setLnb_lnb (s : State) (c : Ch) (l : Lnb) : (s.setLnb c l).lnb = s.lnb.set c l := rfl
@[simp] theorem State.setLnb_frt (s : State) (c : Ch) (l : Lnb) : (s.setLnb c l).frt = s.frt := rfl
@[simp] theorem State.setLnb_egu (s : State) (c : Ch) (l : Lnb) : (s.setLnb c l).egu = s.egu := rfl
@[simp] theorem State.setLnb_rpu (s : State) (c : Ch) (l : Lnb) : (s.setLnb c l).rpu = s.rpu := rfl
@[simp] theorem State.setLnb_sau (s : State) (c : Ch) (l : Lnb) : (s.setLnb c l).sau = s.sau := rfl
@[simp] theorem State.setLnb_pfl (s : State) (c : Ch) (l : Lnb) : (s.setLnb c l).pfl = s.pfl := rfl
@[simp] theorem State.setLnb_pending (s : State) (c : Ch) (l : Lnb) : (s.setLnb c l).pending = s.pending := rfl

@[simp] theorem State.setMkt_inReset (s : State) (m : Mkt) : (s.setMkt m).inReset = s.inReset := rfl
@[simp] theorem State.setMkt_pins (s : State) (m : Mkt) : (s.setMkt m).pins = s.pins := rfl
@[simp] theorem State.setMkt_wpu (s : State) (m : Mkt) : (s.setMkt m).wpu = s.wpu := rfl
@[simp] theorem State.setMkt_mkt (s : State) (m : Mkt) : (s.setMkt m).mkt = m := rfl
@[simp] theorem State.setMkt_tgn (s : State) (m : Mkt) : (s.setMkt m).tgn = s.tgn := rfl
@[simp] theorem State.setMkt_lnb (s : State) (m : Mkt) : (s.setMkt m).lnb = s.lnb := rfl
@[simp] theorem State.setMkt_frt (s : State) (m : Mkt) : (s.setMkt m).frt = s.frt := rfl
@[simp] theorem State.setMkt_egu (s : State) (m : Mkt) : (s.setMkt m).egu = s.egu := rfl
@[simp] theorem State.setMkt_rpu (s : State) (m : Mkt) : (s.setMkt m).rpu = s.rpu := rfl
@[simp] theorem State.setMkt_sau (s : State) (m : Mkt) : (s.setMkt m).sau = s.sau := rfl
@[simp] theorem State.setMkt_pfl (s : State) (m : Mkt) : (s.setMkt m).pfl = s.pfl := rfl
@[simp] theorem State.setMkt_pending (s : State) (m : Mkt) : (s.setMkt m).pending = s.pending := rfl

@[simp] theorem State.setEntries_inReset (s : State) (es : List FrameEntry) : (s.setEntries es).inReset = s.inReset := rfl
@[simp] theorem State.setEntries_pins (s : State) (es : List FrameEntry) : (s.setEntries es).pins = s.pins := rfl
@[simp] theorem State.setEntries_wpu (s : State) (es : List FrameEntry) : (s.setEntries es).wpu = s.wpu := rfl
@[simp] theorem State.setEntries_mkt (s : State) (es : List FrameEntry) : (s.setEntries es).mkt = s.mkt := rfl
@[simp] theorem State.setEntries_tgn (s : State) (es : List FrameEntry) : (s.setEntries es).tgn = s.tgn := rfl
@[simp] theorem State.setEntries_lnb (s : State) (es : List FrameEntry) : (s.setEntries es).lnb = s.lnb := rfl
@[simp] theorem State.setEntries_frt (s : State) (es : List FrameEntry) : (s.setEntries es).frt = { s.frt with entries := es } := rfl
@[simp] theorem State.setEntries_egu (s : State) (es : List FrameEntry) : (s.setEntries es).egu = s.egu := rfl
@[simp] theorem State.setEntries_rpu (s : State) (es : List FrameEntry) : (s.setEntries es).rpu = s.rpu := rfl
@[simp] theorem State.setEntries_sau (s : State) (es : List FrameEntry) : (s.setEntries es).sau = s.sau := rfl
@[simp] theorem State.setEntries_pfl (s : State) (es : List FrameEntry) : (s.setEntries es).pfl = s.pfl := rfl
@[simp] theorem State.setEntries_pending (s : State) (es : List FrameEntry) : (s.setEntries es).pending = s.pending := rfl

@[simp] theorem State.pushItem_inReset (s : State) (i : FrameItem) : (s.pushItem i).inReset = s.inReset := rfl
@[simp] theorem State.pushItem_pins (s : State) (i : FrameItem) : (s.pushItem i).pins = s.pins := rfl
@[simp] theorem State.pushItem_wpu (s : State) (i : FrameItem) : (s.pushItem i).wpu = s.wpu := rfl
@[simp] theorem State.pushItem_mkt (s : State) (i : FrameItem) : (s.pushItem i).mkt = s.mkt := rfl
@[simp] theorem State.pushItem_tgn (s : State) (i : FrameItem) : (s.pushItem i).tgn = s.tgn := rfl
@[simp] theorem State.pushItem_lnb (s : State) (i : FrameItem) : (s.pushItem i).lnb = s.lnb := rfl
@[simp] theorem State.pushItem_frt (s : State) (i : FrameItem) : (s.pushItem i).frt = { s.frt with writeList := s.frt.writeList ++ [i] } := rfl
@[simp] theorem State.pushItem_egu (s : State) (i : FrameItem) : (s.pushItem i).egu = s.egu := rfl
@[simp] theorem State.pushItem_rpu (s : State) (i : FrameItem) : (s.pushItem i).rpu = s.rpu := rfl
@[simp] theorem State.pushItem_sau (s : State) (i : FrameItem) : (s.pushItem i).sau = s.sau := rfl
@[simp] theorem State.pushItem_pfl (s : State) (i : FrameItem) : (s.pushItem i).pfl = s.pfl := rfl
@[simp] theorem State.pushItem_pending (s : State) (i : FrameItem) : (s.pushItem i).pending = s.pending := rfl

@[simp] theorem State.setPfl_inReset (s : State) (f : Pfl) : (s.setPfl f).inReset = s.inReset := rfl
@[simp] theorem State.setPfl_pins (s : State) (f : Pfl) : (s.setPfl f).pins = s.pins := rfl
@[simp] theorem State.setPfl_wpu (s : State) (f : Pfl) : (s.setPfl f).wpu = s.wpu := rfl
@[simp] theorem State.setPfl_mkt (s : State) (f : Pfl) : (s.setPfl f).mkt = s.mkt := rfl
@[simp] theorem State.setPfl_tgn (s : State) (f : Pfl) : (s.setPfl f).tgn = s.tgn := rfl
@[simp] theorem State.setPfl_lnb (s : State) (f : Pfl) : (s.setPfl f).lnb = s.lnb := rfl
@[simp] theorem State.setPfl_frt (s : State) (f : Pfl) : (s.setPfl f).frt = s.frt := rfl
@[simp] theorem State.setPfl_egu (s : State) (f : Pfl) : (s.setPfl f).egu = s.egu := rfl
@[simp] theorem State.setPfl_rpu (s : State) (f : Pfl) : (s.setPfl f).rpu = s.rpu := rfl
@[simp] theorem State.setPfl_sau (s : State) (f : Pfl) : (s.setPfl f).sau = s.sau := rfl
@[simp] theorem State.setPfl_pfl (s : State) (f : Pfl) : (s.setPfl f).pfl = f := rfl
@[simp] theorem State.setPfl_pending (s : State) (f : Pfl) : (s.setPfl f).pending = s.pending := rfl

@[simp] theorem State.setHold_inReset (s : State) (a : Bool) : (s.setHold a).inReset = s.inReset := rfl
@[simp] theorem State.setHold_pins (s : State) (a : Bool) : (s.setHold a).pins = s.pins := rfl
@[simp] theorem State.setHold_wpu (s : State) (a : Bool) : (s.setHold a).wpu = s.wpu := rfl
@[simp] theorem State.setHold_mkt (s : State) (a : Bool) : (s.setHold a).mkt = s.mkt := rfl
@[simp] theorem State.setHold_tgn (s : State) (a : Bool) : (s.setHold a).tgn = s.tgn := rfl
@[simp] theorem State.setHold_lnb (s : State) (a : Bool) : (s.setHold a).lnb = s.lnb := rfl
@[simp] theorem State.setHold_frt (s : State) (a : Bool) : (s.setHold a).frt = { s.frt with held := a } := rfl
@[simp] theorem State.setHold_egu (s : State) (a : Bool) : (s.setHold a).egu = s.egu := rfl
@[simp] theorem State.setHold_rpu (s : State) (a : Bool) : (s.setHold a).rpu = s.rpu := rfl
@[simp] theorem State.setHold_sau (s : State) (a : Bool) : (s.setHold a).sau = s.sau := rfl
@[simp] theorem State.setHold_pfl (s : State) (a : Bool) : (s.setHold a).pfl = s.pfl := rfl
@[simp] theorem State.setHold_pending (s : State) (a : Bool) : (s.setHold a).pending = s.pending := rfl

@[simp] theorem State.setEncoderPins_inReset (s : State) (a b : Bool) (r : Quad Bool) : (s.setEncoderPins a b r).inReset = s.inReset := rfl
@[simp] theorem State.setEncoderPins_pins (s : State) (a b : Bool) (r : Quad Bool) : (s.setEncoderPins a b r).pins = { s.pins with encA := a, encB := b, rdy := r } := rfl
@[simp] theorem State.setEncoderPins_wpu (s : State) (a b : Bool) (r : Quad Bool) : (s.setEncoderPins a b r).wpu = s.wpu := rfl
@[simp] theorem State.setEncoderPins_mkt (s : State) (a b : Bool) (r : Quad Bool) : (s.setEncoderPins a b r).mkt = s.mkt := rfl
@[simp] theorem State.setEncoderPins_tgn (s : State) (a b : Bool) (r : Quad Bool) : (s.setEncoderPins a b r).tgn = s.tgn := rfl
@[simp] theorem State.setEncoderPins_lnb (s : State) (a b : Bool) (r : Quad Bool) : (s.setEncoderPins a b r).lnb = s.lnb := rfl
@[simp] theorem State.setEncoderPins_frt (s : State) (a b : Bool) (r : Quad Bool) : (s.setEncoderPins a b r).frt = s.frt := rfl
@[simp] theorem State.setEncoderPins_egu (s : State) (a b : Bool) (r : Quad Bool) : (s.setEncoderPins a b r).egu = s.egu := rfl
@[simp] theorem State.setEncoderPins_rpu (s : State) (a b : Bool) (r : Quad Bool) : (s.setEncoderPins a b r).rpu = s.rpu := rfl
@[simp] theorem State.setEncoderPins_sau (s : State) (a b : Bool) (r : Quad Bool) : (s.setEncoderPins a b r).sau = s.sau := rfl
@[simp] theorem State.setEncoderPins_pfl (s : State) (a b : Bool) (r : Quad Bool) : (s.setEncoderPins a b r).pfl = s.pfl := rfl
@[simp] theorem State.setEncoderPins_pending (s : State) (a b : Bool) (r : Quad Bool) : (s.setEncoderPins a b r).pending = s.pending := rfl

@[simp] theorem State.setClearPin_inReset (s : State) (a : Bool) : (s.setClearPin a).inReset = s.inReset := rfl
@[simp] theorem State.setClearPin_pins (s : State) (a : Bool) : (s.setClearPin a).pins = { s.pins with clear := a } := rfl
@[simp] theorem State.setClearPin_wpu (s : State) (a : Bool) : (s.setClearPin a).wpu = s.wpu := rfl
@[simp] theorem State.setClearPin_mkt (s : State) (a : Bool) : (s.setClearPin a).mkt = s.mkt := rfl
@[simp] theorem State.setClearPin_tgn (s : State) (a : Bool) : (s.setClearPin a).tgn = s.tgn := rfl
@[simp] theorem State.setClearPin_lnb (s : State) (a : Bool) : (s.setClearPin a).lnb = s.lnb := rfl
@[simp] theorem State.setClearPin_frt (s : State) (a : Bool) : (s.setClearPin a).frt = s.frt := rfl
@[simp] theorem State.setClearPin_egu (s : State) (a : Bool) : (s.setClearPin a).egu = s.egu := rfl
@[simp] theorem State.setClearPin_rpu (s : State) (a : Bool) : (s.setClearPin a).rpu = s.rpu := rfl
@[simp] theorem State.setClearPin_sau (s : State) (a : Bool) : (s.setClearPin a).sau = s.sau := rfl
@[simp] theorem State.setClearPin_pfl (s : State) (a : Bool) : (s.setClearPin a).pfl = s.pfl := rfl
@[simp] theorem State.setClearPin_pending (s : State) (a : Bool) : (s.setClearPin a).pending = s.pending := rfl

@[simp] theorem State.setSreqPin_inReset (s : State) (a : Bool) : (s.setSreqPin a).inReset = s.inReset := rfl
@[simp] theorem State.setSreqPin_pins (s : State) (a : Bool) : (s.setSreqPin a).pins = { s.pins with sreq := a } := rfl
@[simp] theorem State.setSreqPin_wpu (s : State) (a : Bool) : (s.setSreqPin a).wpu = s.wpu := rfl
@[simp] theorem State.setSreqPin_mkt (s : State) (a : Bool) : (s.setSreqPin a).mkt = s.mkt := rfl
@[simp] theorem State.setSreqPin_tgn (s : State) (a : Bool) : (s.setSreqPin a).tgn = s.tgn := rfl
@[simp] theorem State.setSreqPin_lnb (s : State) (a : Bool) : (s.setSreqPin a).lnb = s.lnb := rfl
@[simp] theorem State.setSreqPin_frt (s : State) (a : Bool) : (s.setSreqPin a).frt = s.frt := rfl
@[simp] theorem State.setSreqPin_egu (s : State) (a : Bool) : (s.setSreqPin a).egu = s.egu := rfl
@[simp] theorem State.setSreqPin_rpu (s : State) (a : Bool) : (s.setSreqPin a).rpu = s.rpu := rfl
@[simp] theorem State.setSreqPin_sau (s : State) (a : Bool) : (s.setSreqPin a).sau = s.sau := rfl
@[simp] theorem State.setSreqPin_pfl (s : State) (a : Bool) : (s.setSreqPin a).pfl = s.pfl := rfl
@[simp] theorem State.setSreqPin_pending (s : State) (a : Bool) : (s.setSreqPin a).pending = s.pending := rfl

@[simp] theorem State.addMicrosecond_inReset (s : State) : (s.addMicrosecond).inReset = s.inReset := rfl
@[simp] theorem State.addMicrosecond_pins (s : State) : (s.addMicrosecond).pins = s.pins := rfl
@[simp] theorem State.addMicrosecond_wpu (s : State) : (s.addMicrosecond).wpu = { s.wpu with time := s.wpu.time + 1 } := rfl
@[simp] theorem State.addMicrosecond_mkt (s : State) : (s.addMicrosecond).mkt = s.mkt := rfl
@[simp] theorem State.addMicrosecond_tgn (s : State) : (s.addMicrosecond).tgn = s.tgn := rfl
@[simp] theorem State.addMicrosecond_lnb (s : State) : (s.addMicrosecond).lnb = s.lnb := rfl
@[simp] theorem State.addMicrosecond_frt (s : State) : (s.addMicrosecond).frt = s.frt := rfl
@[simp] theorem State.addMicrosecond_egu (s : State) : (s.addMicrosecond).egu = s.egu := rfl
@[simp] theorem State.addMicrosecond_rpu (s : State) : (s.addMicrosecond).rpu = s.rpu := rfl
@[simp] theorem State.addMicrosecond_sau (s : State) : (s.addMicrosecond).sau = s.sau := rfl
@[simp] theorem State.addMicrosecond_pfl (s : State) : (s.addMicrosecond).pfl = s.pfl := rfl
@[simp] theorem State.addMicrosecond_pending (s : State) : (s.addMicrosecond).pending = s.pending := rfl

end Sys2Proof.Machine
end

