-- ==== Sys2Proof/Laws/Within.lean ====
section
/-! SUPPORT. What each shared operation can change, said once for each: `Within bs s t` says that `t` differs from `s`
in the blocks `bs` at most. -/

namespace Sys2Proof.Machine

/-- The blocks of the state. -/
inductive Block where
  | inReset | pins | wpu | mkt | tgn | lnb | frt | egu | rpu | sau | pfl | pending
deriving DecidableEq, Repr

/-- `t` agrees with `s` on every block that is not in `bs`. -/
structure Within (bs : List Block) (s t : State) : Prop where
  inReset : .inReset ∉ bs → t.inReset = s.inReset
  pins : .pins ∉ bs → t.pins = s.pins
  wpu : .wpu ∉ bs → t.wpu = s.wpu
  mkt : .mkt ∉ bs → t.mkt = s.mkt
  tgn : .tgn ∉ bs → t.tgn = s.tgn
  lnb : .lnb ∉ bs → t.lnb = s.lnb
  frt : .frt ∉ bs → t.frt = s.frt
  egu : .egu ∉ bs → t.egu = s.egu
  rpu : .rpu ∉ bs → t.rpu = s.rpu
  sau : .sau ∉ bs → t.sau = s.sau
  pfl : .pfl ∉ bs → t.pfl = s.pfl
  pending : .pending ∉ bs → t.pending = s.pending

theorem Within.refl (bs : List Block) (s : State) : Within bs s s := by constructor <;> intro _ <;> rfl

theorem Within.trans {bs : List Block} {s t u : State} (a : Within bs s t) (b : Within bs t u) : Within bs s u :=
  ⟨fun h => (b.inReset h).trans (a.inReset h), fun h => (b.pins h).trans (a.pins h),
    fun h => (b.wpu h).trans (a.wpu h), fun h => (b.mkt h).trans (a.mkt h), fun h => (b.tgn h).trans (a.tgn h),
    fun h => (b.lnb h).trans (a.lnb h), fun h => (b.frt h).trans (a.frt h), fun h => (b.egu h).trans (a.egu h),
    fun h => (b.rpu h).trans (a.rpu h), fun h => (b.sau h).trans (a.sau h), fun h => (b.pfl h).trans (a.pfl h),
    fun h => (b.pending h).trans (a.pending h)⟩

theorem Within.mono {bs cs : List Block} {s t : State} (a : Within bs s t) (h : bs ⊆ cs) : Within cs s t :=
  ⟨fun n => a.inReset fun m => n (h m), fun n => a.pins fun m => n (h m), fun n => a.wpu fun m => n (h m),
    fun n => a.mkt fun m => n (h m), fun n => a.tgn fun m => n (h m), fun n => a.lnb fun m => n (h m),
    fun n => a.frt fun m => n (h m), fun n => a.egu fun m => n (h m), fun n => a.rpu fun m => n (h m),
    fun n => a.sau fun m => n (h m), fun n => a.pfl fun m => n (h m), fun n => a.pending fun m => n (h m)⟩

/-- The parameters in force follow the profile loader's block alone. -/
theorem Within.profile {bs : List Block} {s t : State} (a : Within bs s t) (h : .pfl ∉ bs) :
    t.profile = s.profile := by simp [State.profile, a.pfl h]

theorem Within.enabled {bs : List Block} {s t : State} (a : Within bs s t) (h : .pfl ∉ bs) (c : Ch) :
    t.enabled c = s.enabled c := by simp [State.enabled, a.profile h]

/-! ## How the ways of composing operations keep a bound -/

theorem Within.ite {bs : List Block} {s t u : State} {p : Prop} [Decidable p] (a : p → Within bs s t)
    (b : ¬p → Within bs s u) : Within bs s (if p then t else u) := by
  split
  · exact a ‹_›
  · exact b ‹_›

theorem withProfile_within {bs : List Block} {f : Profile → State → State} (h : ∀ p s, Within bs s (f p s))
    (s : State) : Within bs s (s.withProfile f) := by
  unfold State.withProfile; split
  · exact .refl ..
  · exact h ..

theorem foldl_within {α : Type} {bs : List Block} {f : State → α → State} (h : ∀ s a, Within bs s (f s a)) :
    ∀ (l : List α) (s : State), Within bs s (l.foldl f s)
  | [], _ => .refl ..
  | a :: l, s => (h s a).trans (foldl_within h l (f s a))

theorem forChannels_within {bs : List Block} {f : Ch → State → State} (h : ∀ c s, Within bs s (f c s)) (s : State) :
    Within bs s (s.forChannels f) := foldl_within (fun s c => h c s) _ s

theorem repeatTimes_within {bs : List Block} {f : State → State} (h : ∀ s, Within bs s (f s)) :
    ∀ n s, Within bs s (repeatTimes f n s)
  | 0, _ => .refl ..
  | n + 1, s => (h s).trans (repeatTimes_within h n (f s))

/-! ## One block replaced -/

theorem within_pins {bs : List Block} (h : .pins ∈ bs) (s : State) (v : Pins) : Within bs s { s with pins := v } := by
  constructor <;> intro n <;> first | rfl | exact absurd h n

theorem within_wpu {bs : List Block} (h : .wpu ∈ bs) (s : State) (v : Wpu) : Within bs s { s with wpu := v } := by
  constructor <;> intro n <;> first | rfl | exact absurd h n

theorem within_mkt {bs : List Block} (h : .mkt ∈ bs) (s : State) (v : Mkt) : Within bs s { s with mkt := v } := by
  constructor <;> intro n <;> first | rfl | exact absurd h n

theorem within_tgn {bs : List Block} (h : .tgn ∈ bs) (s : State) (v : Quad Tgn) : Within bs s { s with tgn := v } := by
  constructor <;> intro n <;> first | rfl | exact absurd h n

theorem within_lnb {bs : List Block} (h : .lnb ∈ bs) (s : State) (v : Quad Lnb) : Within bs s { s with lnb := v } := by
  constructor <;> intro n <;> first | rfl | exact absurd h n

theorem within_frt {bs : List Block} (h : .frt ∈ bs) (s : State) (v : Frt) : Within bs s { s with frt := v } := by
  constructor <;> intro n <;> first | rfl | exact absurd h n

theorem within_egu {bs : List Block} (h : .egu ∈ bs) (s : State) (v : Egu) : Within bs s { s with egu := v } := by
  constructor <;> intro n <;> first | rfl | exact absurd h n

theorem within_rpu {bs : List Block} (h : .rpu ∈ bs) (s : State) (v : Rpu) : Within bs s { s with rpu := v } := by
  constructor <;> intro n <;> first | rfl | exact absurd h n

theorem within_sau {bs : List Block} (h : .sau ∈ bs) (s : State) (v : Sau) : Within bs s { s with sau := v } := by
  constructor <;> intro n <;> first | rfl | exact absurd h n

theorem within_pfl {bs : List Block} (h : .pfl ∈ bs) (s : State) (v : Pfl) : Within bs s { s with pfl := v } := by
  constructor <;> intro n <;> first | rfl | exact absurd h n

/-! ## Reports, flags, ALERT: the RPU and the SAU -/

/-- What a report event or an alert can change. -/
abbrev reportBlocks : List Block := [.rpu, .sau]

theorem joinQueue_within (r : Report) (s : State) : Within reportBlocks s (joinQueue r s).1 := by
  unfold joinQueue
  split
  · exact within_rpu (by decide) ..
  · split
    · exact .refl ..
    · dsimp only; split <;> exact within_rpu (by decide) ..

theorem setFold_within (ev : ReportEvent) (s : State) : Within reportBlocks s (s.setFold ev) := by
  cases ev <;> first | exact .refl .. | exact within_rpu (by decide) ..

theorem admitReport_within (ev : ReportEvent) (s : State) : Within reportBlocks s (admitReport ev s).1 := by
  unfold admitReport
  split
  · exact .refl ..
  · split
    · exact .refl ..
    · dsimp only; split
      · exact (setFold_within ..).trans (joinQueue_within ..)
      · exact setFold_within ..

theorem evalAlert_within (s : State) : Within reportBlocks s (evalAlert s) := within_sau (by decide) ..

theorem putFlag_within (a : AlertFlag) (v : Bool) (s : State) : Within reportBlocks s (putFlag a v s) :=
  (within_sau (by decide) ..).trans (evalAlert_within _)

theorem raiseReportsDropped_within (s : State) : Within reportBlocks s (raiseReportsDropped s) :=
  .ite (fun _ => .refl ..) (fun _ => (putFlag_within ..).trans (admitReport_within ..))

theorem raiseReport_within (ev : ReportEvent) (s : State) : Within reportBlocks s (raiseReport ev s) :=
  .ite (fun _ => (admitReport_within ..).trans (raiseReportsDropped_within _)) (fun _ => admitReport_within ..)

theorem raiseFlag_within (a : AlertFlag) (s : State) : Within reportBlocks s (raiseFlag a s) :=
  .ite (fun _ => .refl ..) (fun _ => (putFlag_within ..).trans (raiseReport_within ..))

theorem deliver_within (c : Cond) (h : Bool) (s : State) : Within reportBlocks s (deliver c h s) := by
  refine (within_sau (by decide) s { s.sau with cond := s.sau.cond.put c h }).trans ?_
  exact .ite (fun _ => raiseFlag_within ..) fun _ => .ite (fun _ => .refl ..) fun _ => putFlag_within ..

theorem deliverRepeat_within (l r : Bool) (s : State) : Within reportBlocks s (deliverRepeat l r s) :=
  (deliver_within ..).trans (deliver_within ..)

theorem compareSpeed_within (p : Profile) (v : Nat) (s : State) : Within reportBlocks s (compareSpeed p v s) :=
  (deliver_within ..).trans (deliver_within ..)

theorem clearFolding_within (s : State) : Within reportBlocks s (clearFolding s) := within_rpu (by decide) ..

theorem formReportGroup_within (s : State) : Within reportBlocks s (formReportGroup s) := by
  unfold formReportGroup
  split
  · split
    · exact within_rpu (by decide) ..
    · exact .refl ..
  · exact .refl ..

theorem takeStatus_within (s : State) : Within reportBlocks s (takeStatus s) :=
  .ite (fun _ => .refl ..) fun _ =>
    ((within_rpu (by decide) ..).trans (clearFolding_within _)).trans (raiseReport_within ..)

theorem dropRecord_within (s : State) : Within reportBlocks s (dropRecord s) :=
  (within_rpu (by decide) ..).trans (raiseReportsDropped_within _)

theorem takeInterval_within (s : State) : Within reportBlocks s (takeInterval s) :=
  withProfile_within (fun _ _ => .ite
    (fun _ => .ite (fun _ => within_sau (by decide) ..)
      fun _ => (within_sau (by decide) ..).trans (compareSpeed_within ..)) fun _ => .refl ..) s

theorem takeBlockEnd_within (s : State) : Within reportBlocks s (takeBlockEnd s) :=
  withProfile_within (fun _ _ => .ite
    (fun _ => .ite (fun _ => (within_sau (by decide) ..).trans (compareSpeed_within ..))
      fun _ => within_sau (by decide) ..) fun _ => .refl ..) s

theorem countAdvance_within (s : State) : Within reportBlocks s (countAdvance s) :=
  .ite (fun _ => within_sau (by decide) ..) fun _ => .refl ..

theorem followConditions_within (s : State) : Within reportBlocks s (followConditions s) :=
  .ite (fun _ => .refl ..) fun _ => foldl_within (fun _ _ => deliver_within ..) _ s

theorem sauRestart_within (s : State) : Within reportBlocks s (sauRestart s) :=
  (((within_sau (by decide) ..).trans ((deliver_within ..).trans (deliver_within ..))).trans
    (followConditions_within _)).trans (evalAlert_within _)

/-! ## The frame table -/

/-- What a notice, an evaluation or a closure can change. -/
abbrev frameBlocks : List Block := [.frt, .rpu, .sau]

/-- What an opening can change too: FENCED channels may leave FENCED (R70). -/
abbrev openBlocks : List Block := [.lnb, .frt, .rpu, .sau]

theorem countNotice_within (k : CountKind) (c : Ch) (w : Pos) (s : State) :
    Within frameBlocks s (countNotice k c w s) := within_frt (by decide) ..

theorem countClosure_within (p : Profile) (s : State) : Within frameBlocks s (countClosure p s) :=
  .ite (fun _ => within_rpu (by decide) ..) fun _ =>
    .ite (fun _ => within_rpu (by decide) ..) fun _ => within_rpu (by decide) ..

theorem closeEntry_within (p : Profile) (e : FrameEntry) (s : State) : Within frameBlocks s (closeEntry p e s) := by
  unfold closeEntry
  split
  · exact .refl ..
  · exact (((within_frt (by decide) ..).trans ((raiseReport_within ..).mono (by decide))).trans
      (within_frt (by decide) ..)).trans (countClosure_within ..)

theorem closeComplete_within (p : Profile) (s : State) : Within frameBlocks s (closeComplete p s) :=
  foldl_within (fun _ _ => closeEntry_within ..) _ s

theorem evaluate_within (cs : List Ch) (sel : FrameEntry → Bool) (s : State) :
    Within frameBlocks s (evaluate cs sel s) :=
  withProfile_within (fun _ _ => (within_frt (by decide) ..).trans (closeComplete_within ..)) s

theorem evaluateChannel_within (c : Ch) (s : State) : Within frameBlocks s (evaluateChannel c s) :=
  evaluate_within ..

theorem evaluateAll_within (s : State) : Within frameBlocks s (evaluateAll s) := evaluate_within ..

theorem boundAtMark_within (m : Mark) (s : State) : Within frameBlocks s (boundAtMark m s).1 := by
  unfold boundAtMark
  split
  · exact .refl ..
  · split
    · exact within_frt (by decide) ..
    · split <;> first | exact .refl .. | exact within_frt (by decide) ..

theorem deliverLoss_within (b : Pos) (cause : LossCause) (s : State) :
    Within frameBlocks s (deliverLoss b cause s) := by
  unfold deliverLoss
  split
  · exact .refl ..
  · exact .ite (fun _ => (within_frt (by decide) ..).trans (evaluate_within ..)) fun _ => .refl ..

theorem flagLinkReset_within (s : State) : Within frameBlocks s (flagLinkReset s) := within_frt (by decide) ..

theorem exitFences_within (s : State) : Within openBlocks s (exitFences s) :=
  .ite (fun _ =>
    (forChannels_within (fun _ _ => .ite (fun _ => within_lnb (by decide) ..) fun _ => .refl ..) s).trans
      ((deliver_within ..).mono (by decide))) fun _ => .refl ..

theorem openEntry_within (p : Profile) (m : Mark) (j : Nat) (s : State) :
    Within openBlocks s (openEntry p m j s) := by
  unfold openEntry
  exact .ite (fun _ => (within_frt (by decide) ..).trans (exitFences_within _)) fun _ => within_frt (by decide) ..

theorem openOrSkip_within (p : Profile) (m : Mark) (s : State) : Within openBlocks s (openOrSkip p m s) := by
  unfold openOrSkip
  refine .ite (fun _ => (raiseReport_within ..).mono (by decide)) fun _ => .ite
    (fun _ => (raiseReport_within ..).mono (by decide)) fun _ => ?_
  split
  · exact (raiseReport_within ..).mono (by decide)
  · exact openEntry_within ..

theorem deliverMark_within (m : Mark) (s : State) : Within openBlocks s (deliverMark m s) :=
  withProfile_within (fun p s => by
    have a : Within openBlocks s (openOrSkip p m
        (boundAtMark m { s with frt := { s.frt with serial := s.frt.serial + 1 } }).1) :=
      ((within_frt (by decide) ..).trans ((boundAtMark_within ..).mono (by decide))).trans (openOrSkip_within ..)
    dsimp only
    split
    · exact a
    · exact a.trans ((evaluate_within ..).mono (by decide))) s

/-! ## The mark tracker -/

/-- What the MKT's work can change. -/
abbrev markBlocks : List Block := [.mkt, .lnb, .frt, .rpu, .sau]

theorem acceptInSearch_within (k : Candidate) (s : State) : Within markBlocks s (acceptInSearch k s) :=
  ((within_mkt (by decide) ..).trans ((deliverMark_within ..).mono (by decide))).trans
    ((raiseReport_within ..).mono (by decide))

theorem acceptReal_within (p : Profile) (k : Candidate) (s : State) : Within markBlocks s (acceptReal p k s) := by
  have a := fun (t : State) (h : Within markBlocks s t) l r =>
    (h.trans ((deliverRepeat_within l r t).mono (by decide))).trans
      ((deliverMark_within ⟨k.start, false⟩ _).mono (by decide : openBlocks ⊆ markBlocks))
  unfold acceptReal
  exact .ite (fun _ => (a _ (within_mkt (by decide) ..) ..).trans ((raiseReport_within ..).mono (by decide)))
    fun _ => a _ (within_mkt (by decide) ..) ..

theorem synthesize_within (s : State) : Within markBlocks s (synthesize s) := by
  have a := fun (x : Mark) (t : State) (h : Within markBlocks s t) =>
    h.trans ((deliverMark_within x t).mono (by decide : openBlocks ⊆ markBlocks))
  unfold synthesize
  exact .ite (fun _ => (a _ _ (within_mkt (by decide) ..)).trans ((raiseReport_within ..).mono (by decide)))
    fun _ => a _ _ (within_mkt (by decide) ..)

theorem loseLock_within (p : Profile) (cause : LossCause) (s : State) : Within markBlocks s (loseLock p cause s) :=
  (((((deliverLoss_within ..).mono (by decide)).trans ((raiseFlag_within ..).mono (by decide))).trans
    (within_mkt (by decide) ..)).trans ((raiseReport_within ..).mono (by decide))).trans
    ((deliverRepeat_within ..).mono (by decide))

theorem expireWindow_within (p : Profile) (s : State) : Within markBlocks s (expireWindow p s) :=
  .ite (fun _ => synthesize_within _) fun _ => loseLock_within ..

theorem startCandidate_within (p : Profile) (s : State) : Within [.mkt] s (startCandidate p s) := by
  have a := fun m : Mkt => within_mkt (bs := [.mkt]) (by decide) s m
  unfold startCandidate
  dsimp only
  split
  · exact .refl ..
  · exact a _
  all_goals exact .ite (fun _ => a _) fun _ => .ite (fun _ => a _) fun _ => .refl ..

theorem finishAdvance_within (s : State) : Within [.mkt] s (finishAdvance s) :=
  withProfile_within (fun _ _ => .ite (fun _ => (within_mkt (by decide) ..).trans (startCandidate_within ..))
    fun _ => .refl ..) s

theorem takeQualifies_within (s : State) : Within markBlocks s (takeQualifies s) := by
  unfold takeQualifies
  split
  · refine .ite (fun _ => .trans ?_ ((finishAdvance_within _).mono (by decide))) fun _ => .refl ..
    exact .ite (fun _ => acceptReal_within ..) fun _ => acceptInSearch_within ..
  · exact .refl ..

theorem takeWindow_within (s : State) : Within markBlocks s (takeWindow s) :=
  withProfile_within (fun p s => .ite (fun _ => by
    refine .trans ?_ ((finishAdvance_within _).mono (by decide))
    split
    · exact .ite (fun _ => within_mkt (by decide) ..) fun _ => expireWindow_within ..
    · exact expireWindow_within ..) fun _ => .refl ..) s

theorem candidateProgress_within (p : Profile) (active : Bool) (s : State) :
    Within markBlocks s (candidateProgress p active s) := by
  unfold candidateProgress
  split
  · exact .refl ..
  · refine .ite (fun _ => within_mkt (by decide) ..) fun _ => .ite (fun _ => ?_) fun _ => within_mkt (by decide) ..
    exact (within_mkt (by decide) ..).trans (expireWindow_within ..)

theorem mktAdvance_within (s : State) : Within markBlocks s (mktAdvance s) := by
  unfold mktAdvance
  dsimp only
  split
  · exact within_mkt (by decide) ..
  · exact ((within_mkt (by decide) ..).trans (candidateProgress_within ..)).trans
      ((finishAdvance_within _).mono (by decide))

theorem mktDeepReversal_within (s : State) : Within markBlocks s (mktDeepReversal s) :=
  withProfile_within (fun _ _ => .ite (fun _ => .refl ..) fun _ =>
    (within_mkt (by decide) ..).trans (loseLock_within ..)) s

theorem mktRestart_within (p : Profile) (s : State) : Within markBlocks s (mktRestart p s) :=
  (within_mkt (by decide) ..).trans ((deliverRepeat_within ..).mono (by decide))

/-! ## The trigger generator -/

/-- What the TGN's work can change. -/
abbrev triggerBlocks : List Block := [.tgn, .frt, .rpu, .sau]

theorem expireHead_within (c : Ch) (s : State) : Within triggerBlocks s (expireHead c s) := by
  unfold expireHead
  split
  · exact .refl ..
  · exact ((within_tgn (by decide) ..).trans ((countNotice_within ..).mono (by decide))).trans
      ((evaluateChannel_within ..).mono (by decide))

theorem emptyQueue_within (c : Ch) (s : State) : Within triggerBlocks s (emptyQueue c s) :=
  foldl_within (fun _ _ => expireHead_within ..) _ s

theorem takeLatency_within (c : Ch) (s : State) : Within triggerBlocks s (takeLatency c s) :=
  .ite (fun _ => expireHead_within ..) fun _ => .refl ..

theorem countDown_within (c : Ch) (s : State) : Within [.tgn] s (countDown c s) :=
  .ite (fun _ => by
    split
    · exact .refl ..
    · exact within_tgn (by decide) ..) fun _ => .refl ..

theorem judgeFire_within (p : Profile) (c : Ch) (s : State) : Within triggerBlocks s (judgeFire p c s) := by
  unfold judgeFire
  split
  · exact within_tgn (by decide) ..
  · exact (countNotice_within ..).mono (by decide)

theorem takeFire_within (c : Ch) (s : State) : Within triggerBlocks s (takeFire c s) :=
  withProfile_within (fun _ _ => .ite
    (fun _ => ((takeLatency_within ..).trans (within_tgn (by decide) ..)).trans (judgeFire_within ..))
    fun _ => .refl ..) s

theorem takePulseEnd_within (c : Ch) (s : State) : Within [.tgn] s (takePulseEnd c s) :=
  .ite (fun _ => within_tgn (by decide) ..) fun _ => .refl ..

theorem tgnRestart_within (p : Profile) (c : Ch) (s : State) : Within triggerBlocks s (tgnRestart p c s) :=
  (within_tgn (by decide) ..).trans (emptyQueue_within ..)

/-! ## The line binder -/

/-- What the LNB's work can change. -/
abbrev bindBlocks : List Block := [.tgn, .lnb, .frt, .rpu, .sau]

/-- What a line event that takes no record can change. -/
abbrev lineBlocks : List Block := [.lnb, .frt, .rpu, .sau]

theorem lineFault_within (c : Ch) (k : FaultKind) (i : Nat) (s : State) : Within lineBlocks s (lineFault c k i s) :=
  (within_lnb (by decide) ..).trans ((raiseReport_within ..).mono (by decide))

theorem endShort_within (c : Ch) (s : State) : Within lineBlocks s (endShort c s) := by
  unfold endShort
  dsimp only
  split
  · exact .refl ..
  · split
    · exact within_lnb (by decide) ..
    · refine .trans ?_ (lineFault_within ..)
      split
      · exact within_lnb (by decide) ..
      · exact ((within_lnb (by decide) ..).trans ((countNotice_within ..).mono (by decide))).trans
          ((evaluateChannel_within ..).mono (by decide))

theorem completeLine_within (c : Ch) (s : State) : Within lineBlocks s (completeLine c s) := by
  unfold completeLine
  dsimp only
  split
  · exact .refl ..
  · split
    · exact within_lnb (by decide) ..
    · exact (within_lnb (by decide) ..).trans ((evaluateChannel_within ..).mono (by decide))

theorem takeStall_within (c : Ch) (s : State) : Within lineBlocks s (takeStall c s) :=
  .ite (fun _ => endShort_within ..) fun _ => .refl ..

theorem refuseLine_within (c : Ch) (k : Nat) (kind : FaultKind) (s : State) :
    Within lineBlocks s (refuseLine c k kind s) := (within_lnb (by decide) ..).trans (lineFault_within ..)

theorem bindLine_within (p : Profile) (c : Ch) (k : Nat) (r : TrigRec) (s : State) :
    Within lineBlocks s (bindLine p c k r s) := by
  unfold bindLine
  refine .trans ?_ ((evaluateChannel_within ..).mono (by decide))
  split
  · exact (within_lnb (by decide) ..).trans ((countNotice_within ..).mono (by decide))
  · exact ((within_lnb (by decide) ..).trans (lineFault_within ..)).trans ((countNotice_within ..).mono (by decide))
  · exact (within_lnb (by decide) ..).trans (lineFault_within ..)

theorem bypassHead_within (n : Nat) (c : Ch) (s : State) : Within bindBlocks s (bypassHead n c s) := by
  unfold bypassHead
  split
  · exact .refl ..
  · exact ((expireHead_within ..).mono (by decide)).trans ((lineFault_within ..).mono (by decide))

theorem newLineRunning_within (p : Profile) (c : Ch) (k : Nat) (s : State) :
    Within bindBlocks s (newLineRunning p c k s) := by
  unfold newLineRunning
  dsimp only
  split
  · exact (within_lnb (by decide) ..).trans ((refuseLine_within ..).mono (by decide))
  · exact (((repeatTimes_within (fun _ => bypassHead_within ..) _ s).trans (within_tgn (by decide) ..)).trans
      (within_lnb (by decide) ..)).trans ((bindLine_within ..).mono (by decide))

theorem newLineResync_within (p : Profile) (c : Ch) (k : Nat) (s : State) :
    Within bindBlocks s (newLineResync p c k s) := by
  unfold newLineResync
  split
  · exact (refuseLine_within ..).mono (by decide)
  · exact (((within_tgn (by decide) ..).trans (within_lnb (by decide) ..)).trans
      ((raiseReport_within ..).mono (by decide))).trans ((bindLine_within ..).mono (by decide))

theorem newLine_within (p : Profile) (c : Ch) (k : Nat) (s : State) : Within bindBlocks s (newLine p c k s) := by
  unfold newLine
  refine .ite (fun _ => (refuseLine_within ..).mono (by decide)) fun _ => ?_
  split
  · exact (refuseLine_within ..).mono (by decide)
  · exact newLineResync_within ..
  · exact newLineRunning_within ..
  · exact .refl ..

theorem takeBytes_within (p : Profile) (c : Ch) (b : Nat) (v : List Byte) (s : State) :
    Within lineBlocks s (takeBytes p c b v s).1 := by
  unfold takeBytes
  dsimp only
  split
  · exact .refl ..
  · exact .ite (fun _ => (within_lnb (by decide) ..).trans (completeLine_within ..)) fun _ => within_lnb (by decide) ..

theorem handlePiece_within (p : Profile) (c : Ch) (o : Nat) (d : List Byte) (s : State) :
    Within bindBlocks s (handlePiece p c o d s).1 := by
  unfold handlePiece
  dsimp only
  split
  · exact .refl ..
  · split
    · exact (lineFault_within ..).mono (by decide)
    · exact (takeBytes_within ..).mono (by decide)
    · exact (((endShort_within ..).mono (by decide)).trans (newLine_within ..)).trans
        ((takeBytes_within ..).mono (by decide))

theorem fenceChannel_within (c : Ch) (s : State) : Within bindBlocks s (fenceChannel c s) := by
  have a : ∀ l : Lnb, Within bindBlocks s (emptyQueue c (s.setLnb c l)) := fun l =>
    (within_lnb (by decide) ..).trans ((emptyQueue_within ..).mono (by decide))
  unfold fenceChannel
  dsimp only
  refine .trans ?_ ((raiseReport_within ..).mono (by decide))
  split
  · exact a _
  · exact (a _).trans ((deliver_within ..).mono (by decide))

theorem takeFence_within (c : Ch) (s : State) : Within bindBlocks s (takeFence c s) :=
  .ite (fun _ => fenceChannel_within ..) fun _ => .refl ..

theorem lnbRestart_within (p : Profile) (s : State) : Within lineBlocks s (lnbRestart p s) := by
  have a := forChannels_within (bs := lineBlocks)
    (f := fun c t => t.setLnb c ((t.lnb.get c).restart (p.ch.get c).enable)) (fun _ _ => within_lnb (by decide) ..) s
  unfold lnbRestart
  exact .ite (fun _ => a.trans ((deliver_within ..).mono (by decide))) fun _ => a

theorem channelLinkReset_within (c : Ch) (s : State) : Within bindBlocks s (channelLinkReset c s) :=
  .ite (fun _ => (((endShort_within ..).mono (by decide)).trans (within_lnb (by decide) ..)).trans
    ((emptyQueue_within ..).mono (by decide))) fun _ => .refl ..

/-! ## The egress unit -/

theorem refreshFlow_within (s : State) : Within [.egu] s (refreshFlow s) := within_egu (by decide) ..

theorem pushEgress_within (es : List Egress) (s : State) : Within [.egu] s (pushEgress es s) :=
  within_egu (by decide) ..

theorem admitFrameItem_within (s : State) : Within [.frt, .egu] s (admitFrameItem s) := by
  unfold admitFrameItem
  split
  · exact .refl ..
  · exact ((within_frt (by decide) ..).trans ((pushEgress_within ..).mono (by decide))).trans
      ((refreshFlow_within _).mono (by decide))

theorem admitRecord_within (s : State) : Within [.rpu, .egu] s (admitRecord s) := by
  unfold admitRecord
  split
  · exact .refl ..
  · split
    · exact .refl ..
    · exact .ite (fun _ => ((within_rpu (by decide) ..).trans ((pushEgress_within ..).mono (by decide))).trans
        ((refreshFlow_within _).mono (by decide))) fun _ => .refl ..

theorem admitMessage_within (s : State) : Within [.rpu, .egu] s (admitMessage s) := by
  unfold admitMessage
  split
  · exact .refl ..
  · split
    · exact .ite (fun _ => ((within_rpu (by decide) ..).trans ((pushEgress_within ..).mono (by decide))).trans
        ((refreshFlow_within _).mono (by decide))) fun _ => .refl ..
    · exact .refl ..

theorem acceptRequest_within (r : Request) (s : State) : Within [.egu] s (acceptRequest r s) :=
  .ite (fun _ => (within_egu (by decide) ..).trans (refreshFlow_within _)) fun _ => .refl ..

/-- What the admission of a piece can change. -/
abbrev pieceBlocks : List Block := [.tgn, .lnb, .frt, .egu, .rpu, .sau]

theorem admitPieceOf_within (p : Profile) (g : Ingress) (c : Ch) (o n : Nat) (s : State) :
    Within pieceBlocks s (admitPieceOf p g c o n s) := by
  unfold admitPieceOf
  exact (((((handlePiece_within ..).mono (by decide)).trans (within_lnb (by decide) ..)).trans
    ((pushEgress_within ..).mono (by decide))).trans (within_egu (by decide) ..)).trans
    ((refreshFlow_within _).mono (by decide))

theorem admitPiece_within (s : State) : Within pieceBlocks s (admitPiece s) := by
  unfold admitPiece
  split
  · split
    · exact admitPieceOf_within ..
    · exact .refl ..
  · exact .refl ..

theorem admitPass_within (s : State) : Within [.egu] s (admitPass s) := by
  unfold admitPass
  split
  · exact .refl ..
  · split
    · exact .refl ..
    · exact ((pushEgress_within ..).trans (within_egu (by decide) ..)).trans (refreshFlow_within _)

theorem sendEgress_within (s : State) : Within [.egu] s (sendEgress s) :=
  .ite (fun _ => (within_egu (by decide) ..).trans (refreshFlow_within _)) fun _ => .refl ..

theorem takeDownstream_within (r : Request) (s : State) : Within [.egu] s (takeDownstream r s) :=
  .ite (fun _ => within_egu (by decide) ..) fun _ => .refl ..

theorem sendDownstream_within (s : State) : Within [.egu] s (sendDownstream s) :=
  .ite (fun _ => within_egu (by decide) ..) fun _ => .refl ..

theorem releaseGrabber_within (s : State) : Within [.egu] s (releaseGrabber s) :=
  .ite (fun _ => within_egu (by decide) ..) fun _ => .refl ..

theorem hostLinkUp_within (s : State) : Within [.egu] s (hostLinkUp s) :=
  ((within_egu (by decide) ..).trans (releaseGrabber_within _)).trans (refreshFlow_within _)

theorem dropLinks_within (s : State) : Within [.egu, .rpu] s (dropLinks s) := by
  constructor <;> intro n <;> first | rfl | exact absurd (by decide) n

theorem linkReset_within (s : State) : Within pieceBlocks s (linkReset s) :=
  (((dropLinks_within s).mono (by decide)).trans
    ((repeatTimes_within (fun _ => dropRecord_within _) _ _).mono (by decide))).trans
    (((flagLinkReset_within _).mono (by decide)).trans
      (forChannels_within (fun _ _ => (channelLinkReset_within ..).mono (by decide)) _))

theorem grabberTrained_within (s : State) : Within [.egu] s (grabberTrained s) :=
  .ite (fun _ => (within_egu (by decide) ..).trans (refreshFlow_within _)) fun _ => .refl ..

theorem grabberLost_within (s : State) : Within [.egu] s (grabberLost s) :=
  .ite (fun _ => (within_egu (by decide) ..).trans (refreshFlow_within _)) fun _ => .refl ..

/-! ## The profile loader -/

/-- What an activation, a refusal or the end of a load can change. -/
abbrev loadBlocks : List Block := [.mkt, .tgn, .lnb, .frt, .egu, .rpu, .sau, .pfl]

theorem testRequest_within (s : State) : Within [.pfl] s (testRequest s) := by
  unfold testRequest
  dsimp only
  split
  · exact .ite (fun _ => within_pfl (by decide) ..) fun _ => .refl ..
  · exact .ite (fun _ => within_pfl (by decide) ..) fun _ => .refl ..
  · exact .ite (fun _ => within_pfl (by decide) ..) fun _ => .ite (fun _ => within_pfl (by decide) ..) fun _ => .refl ..
  all_goals exact .refl ..

theorem takeDebounce_within (s : State) : Within [.pfl] s (takeDebounce s) :=
  .ite (fun _ => (within_pfl (by decide) ..).trans (testRequest_within _)) fun _ => .refl ..

theorem takeDrainEnd_within (s : State) : Within [.pfl] s (takeDrainEnd s) :=
  .ite (fun _ => within_pfl (by decide) ..) fun _ => .refl ..

theorem grantStore_within (s : State) : Within [.pfl] s (grantStore s) := within_pfl (by decide) ..

theorem takeGrant_within (s : State) : Within [.pfl] s (takeGrant s) :=
  .ite (fun _ => grantStore_within _) fun _ => .refl ..

theorem takeLoadingStart_within (s : State) : Within [.pfl] s (takeLoadingStart s) :=
  .ite (fun _ => within_pfl (by decide) ..) fun _ => .refl ..

/-- What the resets of an activation or a refusal can change. -/
abbrev restartBlocksOf : List Block := [.mkt, .tgn, .lnb, .frt, .rpu, .sau]

theorem restartBlocks_within (p : Profile) (s : State) : Within restartBlocksOf s (restartBlocks p s) :=
  (((mktRestart_within ..).mono (by decide)).trans
    (forChannels_within (fun _ _ => (tgnRestart_within ..).mono (by decide)) _)).trans
    ((lnbRestart_within ..).mono (by decide))

theorem activate_within (n : BitVec 2) (p : Profile) (r : Option (BitVec 2)) (s : State) :
    Within loadBlocks s (activate n p r s) :=
  ((((within_pfl (by decide) ..).trans ((restartBlocks_within ..).mono (by decide))).trans
    (within_frt (by decide) ..)).trans ((clearFolding_within _).mono (by decide))).trans
    ((sauRestart_within _).mono (by decide))

theorem enterFallback_within (s : State) : Within loadBlocks s (enterFallback s) :=
  ((within_pfl (by decide) ..).trans ((deliver_within ..).mono (by decide))).trans
    ((testRequest_within _).mono (by decide))

theorem loadAccepted_within (n : BitVec 2) (p : Profile) (s : State) : Within loadBlocks s (loadAccepted n p s) := by
  have a := activate_within n p none s
  unfold loadAccepted
  refine .trans (.trans ?_ ((raiseReport_within ..).mono (by decide))) ((testRequest_within _).mono (by decide))
  exact .ite (fun _ => a.trans ((deliver_within ..).mono (by decide))) fun _ => a

theorem loadRefused_within (n : BitVec 2) (why : Reason) (s : State) : Within loadBlocks s (loadRefused n why s) := by
  unfold loadRefused
  dsimp only
  split
  · exact (within_pfl (by decide) ..).trans (enterFallback_within _)
  · exact ((((within_pfl (by decide) ..).trans ((restartBlocks_within ..).mono (by decide))).trans
      ((clearFolding_within _).mono (by decide))).trans ((raiseReport_within ..).mono (by decide))).trans
      ((testRequest_within _).mono (by decide))

theorem finishLoad_within (n : BitVec 2) (s : State) : Within loadBlocks s (finishLoad n s) := by
  unfold finishLoad
  dsimp only
  split
  · exact within_pfl (by decide) ..
  · split
    · exact (within_pfl (by decide) ..).trans (loadAccepted_within ..)
    · exact (within_pfl (by decide) ..).trans (loadRefused_within ..)

theorem startUpDone_within (n : BitVec 2) (s : State) : Within loadBlocks s (startUpDone n s) :=
  ((((within_pfl (by decide) ..).trans ((raiseReport_within ..).mono (by decide))).trans
    ((releaseGrabber_within _).mono (by decide))).trans ((refreshFlow_within _).mono (by decide))).trans
    ((testRequest_within _).mono (by decide))

theorem finishStartUp_within (n : BitVec 2) (s : State) : Within loadBlocks s (finishStartUp n s) := by
  have a := fun t : State => (enterFallback_within t).trans
    (((releaseGrabber_within _).mono (by decide : [Block.egu] ⊆ loadBlocks)).trans
      ((refreshFlow_within _).mono (by decide)))
  unfold finishStartUp
  dsimp only
  split
  · exact .refl ..
  · split
    · exact (activate_within ..).trans (startUpDone_within ..)
    · refine .ite (fun _ => a _) fun _ => .ite (fun _ => (within_pfl (by decide) ..).trans (a _)) fun _ => ?_
      exact (within_pfl (by decide) ..).trans (within_pfl (by decide) ..)

theorem takeReadEnd_within (h r : List Byte) (s : State) : Within loadBlocks s (takeReadEnd h r s) := by
  unfold takeReadEnd
  split
  · exact .refl ..
  · dsimp only
    split
    · exact (within_pfl (by decide) ..).trans (finishStartUp_within ..)
    · exact (within_pfl (by decide) ..).trans (finishLoad_within ..)
    all_goals exact .refl ..

/-! ## The web position unit, settling and CLEAR -/

/-- What the events that are due can change. -/
abbrev settleBlocks : List Block := [.mkt, .tgn, .lnb, .frt, .rpu, .sau, .pfl]

theorem settleChannel_within (c : Ch) (s : State) : Within bindBlocks s (settleChannel c s) :=
  (((((takeLatency_within ..).mono (by decide)).trans ((takeFire_within ..).mono (by decide))).trans
    ((takeStall_within ..).mono (by decide))).trans (takeFence_within ..)).trans
    ((takePulseEnd_within ..).mono (by decide))

theorem settle_within (s : State) : Within settleBlocks s (settle s) := by
  have a : Within settleBlocks s ((takeWindow (takeQualifies s)).forChannels settleChannel) :=
    (((takeQualifies_within _).mono (by decide)).trans ((takeWindow_within _).mono (by decide))).trans
      (forChannels_within (fun _ _ => (settleChannel_within ..).mono (by decide)) _)
  have b := ((a.trans ((takeInterval_within _).mono (by decide))).trans
    ((takeBlockEnd_within _).mono (by decide))).trans ((takeDebounce_within _).mono (by decide))
  have c := b.trans ((repeatTimes_within (fun _ => takeStatus_within _)
    (takeDebounce (takeBlockEnd (takeInterval
      ((takeWindow (takeQualifies s)).forChannels settleChannel)))).rpu.statusDue _).mono (by decide))
  exact (((c.trans ((takeDrainEnd_within _).mono (by decide))).trans ((takeGrant_within _).mono (by decide))).trans
    ((takeLoadingStart_within _).mono (by decide))).trans ((formReportGroup_within _).mono (by decide))

/-- What an advance delivered to the blocks can change. -/
abbrev advanceBlocks : List Block := [.mkt, .tgn, .lnb, .frt, .rpu, .sau]

theorem deliverAdvance_within (s : State) : Within advanceBlocks s (deliverAdvance s) :=
  ((((mktAdvance_within _).mono (by decide)).trans
    (forChannels_within (fun _ _ => (countDown_within ..).mono (by decide)) _)).trans
    ((countAdvance_within _).mono (by decide))).trans ((evaluateAll_within _).mono (by decide))

/-- What an observed encoder pair can change. -/
abbrev encoderBlocks : List Block := [.wpu, .mkt, .tgn, .lnb, .frt, .rpu, .sau]

theorem takeForward_within (s : State) : Within encoderBlocks s (takeForward s) :=
  .ite (fun _ => (within_wpu (by decide) ..).trans ((deliverAdvance_within _).mono (by decide)))
    fun _ => within_wpu (by decide) ..

theorem takeReverse_within (s : State) : Within encoderBlocks s (takeReverse s) :=
  .ite (fun _ => ((within_wpu (by decide) ..).trans (within_wpu (by decide) ..)).trans
    ((mktDeepReversal_within _).mono (by decide))) fun _ => within_wpu (by decide) ..

theorem takeEncoderError_within (s : State) : Within [.wpu, .rpu, .sau] s (takeEncoderError s) :=
  (within_wpu (by decide) ..).trans ((raiseFlag_within ..).mono (by decide))

theorem observePair_within (q : Bool × Bool) (s : State) : Within encoderBlocks s (observePair q s) := by
  unfold observePair
  dsimp only
  split
  · exact within_wpu (by decide) ..
  · split
    · exact .refl ..
    · exact (within_wpu (by decide) ..).trans (takeForward_within _)
    · exact (within_wpu (by decide) ..).trans (takeReverse_within _)
    · exact (within_wpu (by decide) ..).trans ((takeEncoderError_within _).mono (by decide))

theorem takeClearPulse_within (s : State) : Within openBlocks s (takeClearPulse s) :=
  ((within_sau (by decide) ..).trans ((evalAlert_within _).mono (by decide))).trans (exitFences_within _)

theorem sampleClear_within (a : Bool) (s : State) : Within openBlocks s (sampleClear a s) :=
  .ite (fun _ => (within_sau (by decide) ..).trans (takeClearPulse_within _)) fun _ => within_sau (by decide) ..

/-! ## Commands -/

theorem live_within {bs : List Block} {f : State → State} (h : ∀ s, Within bs s (f s)) (s : State) :
    Within bs s (live f s) := .ite (fun _ => .refl ..) fun _ => h s

theorem outside_within {bs : List Block} {f : State → State} (h : ∀ s, Within bs s (f s)) (s : State) :
    Within (settleBlocks ++ bs) s (outside f s) :=
  .ite (fun _ => .refl ..) fun _ => ((settle_within s).mono (List.subset_append_left ..)).trans
    ((h _).mono (List.subset_append_right ..))

end Sys2Proof.Machine
end

