-- ==== Sys2Proof/Laws/Alerts.lean ====
section
/-! SUPPORT. What report events, alert flags and deliveries of conditions do to the SAU and to the report queue: the
held conditions, each flag, the ALERT line, and the order of the queue. -/

namespace Sys2Proof.Machine

/-! ## Flag sets and condition sets -/

theorem FlagSet.get_put (f : FlagSet) (a b : AlertFlag) (v : Bool) :
    (f.put a v).get b = if b = a then v else f.get b := by
  cases a <;> cases b <;> rfl

@[simp] theorem FlagSet.get_put_self (f : FlagSet) (a : AlertFlag) (v : Bool) : (f.put a v).get a = v := by
  cases a <;> rfl

theorem FlagSet.get_put_of_ne (f : FlagSet) {a b : AlertFlag} (v : Bool) (h : b ≠ a) :
    (f.put a v).get b = f.get b := by simp [FlagSet.get_put, h]

theorem FlagSet.put_of_get {f : FlagSet} {a : AlertFlag} {v : Bool} (h : f.get a = v) : f.put a v = f := by
  subst h; cases a <;> rfl

theorem Conditions.get_put (k : Conditions) (c d : Cond) (v : Bool) :
    (k.put c v).get d = if d = c then v else k.get d := by
  cases c <;> cases d <;> rfl

/-! ## The queue of reports -/

@[simp] theorem joinQueue_sau (r : Report) (s : State) : (joinQueue r s).1.sau = s.sau := by
  unfold joinQueue; split
  · rfl
  · split
    · rfl
    · dsimp only; split <;> rfl

@[simp] theorem setFold_sau (ev : ReportEvent) (s : State) : (s.setFold ev).sau = s.sau := by cases ev <;> rfl

@[simp] theorem admitReport_sau (ev : ReportEvent) (s : State) : (admitReport ev s).1.sau = s.sau := by
  unfold admitReport; split
  · rfl
  · split
    · rfl
    · dsimp only; split <;> simp

theorem insertReport_length (r : Report) : ∀ q, (insertReport r q).length = q.length + 1
  | [] => rfl
  | x :: q => by
    unfold insertReport; split
    · simp [insertReport_length r q]
    · simp

theorem mem_insertReport {r x : Report} : ∀ {q}, x ∈ insertReport r q ↔ x = r ∨ x ∈ q
  | [] => by simp [insertReport]
  | y :: q => by
    unfold insertReport; split
    · simp [mem_insertReport (q := q)]; tauto
    · simp

/-- The place of R141: behind every report of its own priority or higher and ahead of every one of lower. -/
theorem insertReport_append {r : Report} : ∀ {hi lo : List Report}, (∀ x ∈ hi, r.priority ≤ x.priority) →
    (∀ x ∈ lo, x.priority < r.priority) → insertReport r (hi ++ lo) = hi ++ r :: lo
  | [], [], _, _ => rfl
  | [], y :: lo, _, h => by
    have := h y (by simp)
    simp [insertReport]; omega
  | y :: hi, lo, g, h => by
    have := g y (by simp)
    simp only [List.cons_append, insertReport, this, if_true]
    rw [insertReport_append (fun x m => g x (by simp [m])) h]

/-- Insertion keeps the order of priority. -/
theorem insertReport_sorted {r : Report} : ∀ {q : List Report}, q.Pairwise (fun a b => b.priority ≤ a.priority) →
    (insertReport r q).Pairwise (fun a b => b.priority ≤ a.priority)
  | [], _ => by simp [insertReport]
  | y :: q, h => by
    rw [List.pairwise_cons] at h
    unfold insertReport; split
    · rename_i hr
      rw [List.pairwise_cons]
      refine ⟨fun x m => ?_, insertReport_sorted h.2⟩
      rcases mem_insertReport.1 m with rfl | m
      · exact hr
      · exact h.1 x m
    · rename_i hr
      rw [List.pairwise_cons, List.pairwise_cons]
      refine ⟨fun x m => ?_, h⟩
      rcases List.mem_cons.1 m with rfl | m
      · omega
      · have := h.1 x m; omega

/-! ## The laws of the RPU hold on through a report -/

/-- The RPU part of ReportQueueInv, of the RPU alone. -/
def Rpu.orderly (r : Rpu) : Prop :=
  r.queue.length ≤ Config.reportCapacity ∧ r.queue.Pairwise (fun a b => b.priority ≤ a.priority) ∧
    r.dropped ≤ Config.sat16

theorem joinQueue_orderly {r : Report} {s : State} (h : s.rpu.orderly) : (joinQueue r s).1.rpu.orderly := by
  obtain ⟨h1, h2, h3⟩ := h
  unfold joinQueue; split
  · rename_i hl
    exact ⟨by simp only [insertReport_length]; omega, insertReport_sorted h2, h3⟩
  · split
    · exact ⟨h1, h2, h3⟩
    · dsimp only; split
      · refine ⟨?_, insertReport_sorted (h2.sublist (List.dropLast_sublist _)), Nat.min_le_left ..⟩
        have hq : s.rpu.queue ≠ [] := by rintro e; simp_all
        have := List.length_pos_iff.2 hq
        simp only [insertReport_length, List.length_dropLast]; omega
      · exact ⟨h1, h2, Nat.min_le_left ..⟩

theorem setFold_queue (ev : ReportEvent) (s : State) :
    (s.setFold ev).rpu.queue = s.rpu.queue ∧ (s.setFold ev).rpu.dropped = s.rpu.dropped := by cases ev <;> exact ⟨rfl, rfl⟩

theorem admitReport_orderly {ev : ReportEvent} {s : State} (h : s.rpu.orderly) :
    (admitReport ev s).1.rpu.orderly := by
  have hf : (s.setFold ev).rpu.orderly := by
    obtain ⟨a, b⟩ := setFold_queue ev s
    unfold Rpu.orderly at *; rw [a, b]; exact h
  unfold admitReport; split
  · exact h
  · split
    · exact h
    · dsimp only; split
      · exact joinQueue_orderly hf
      · exact hf

theorem putFlag_rpu (a : AlertFlag) (v : Bool) (s : State) : (putFlag a v s).rpu = s.rpu := rfl

theorem raiseReportsDropped_orderly {s : State} (h : s.rpu.orderly) : (raiseReportsDropped s).rpu.orderly := by
  unfold raiseReportsDropped; split
  · exact h
  · exact admitReport_orderly h

theorem raiseReport_orderly {ev : ReportEvent} {s : State} (h : s.rpu.orderly) : (raiseReport ev s).rpu.orderly := by
  unfold raiseReport; dsimp only; split
  · exact raiseReportsDropped_orderly (admitReport_orderly h)
  · exact admitReport_orderly h

theorem raiseFlag_orderly {a : AlertFlag} {s : State} (h : s.rpu.orderly) : (raiseFlag a s).rpu.orderly := by
  unfold raiseFlag; split
  · exact h
  · exact raiseReport_orderly h

theorem deliver_orderly {c : Cond} {v : Bool} {s : State} (h : s.rpu.orderly) : (deliver c v s).rpu.orderly := by
  unfold deliver; dsimp only; split
  · exact raiseFlag_orderly h
  · split <;> exact h

/-! ## The SAU through a report, a flag, a delivery -/

/-- The fields of the SAU that neither a report nor a flag nor a delivery touches: the speed unit and the CLEAR
reference. -/
structure Sau.SameSpeed (a b : Sau) : Prop where
  speedT0 : b.speedT0 = a.speedT0
  raw : b.raw = a.raw
  blockSum : b.blockSum = a.blockSum
  blockCount : b.blockCount = a.blockCount
  speedAvg : b.speedAvg = a.speedAvg
  clearRef : b.clearRef = a.clearRef

theorem Sau.SameSpeed.refl (a : Sau) : Sau.SameSpeed a a := ⟨rfl, rfl, rfl, rfl, rfl, rfl⟩

theorem Sau.SameSpeed.trans {a b c : Sau} (h : Sau.SameSpeed a b) (g : Sau.SameSpeed b c) : Sau.SameSpeed a c :=
  ⟨g.speedT0.trans h.speedT0, g.raw.trans h.raw, g.blockSum.trans h.blockSum, g.blockCount.trans h.blockCount,
    g.speedAvg.trans h.speedAvg, g.clearRef.trans h.clearRef⟩

/-- REPORTS_DROPPED raised: it ends SET, every other flag and all the rest stays; ALERT is evaluated when it changes
(R142, R160). -/
theorem raiseReportsDropped_sau (s : State) :
    (raiseReportsDropped s).sau = s.sau ∨ (raiseReportsDropped s).sau = (putFlag .reportsDropped true s).sau := by
  unfold raiseReportsDropped; split
  · exact .inl rfl
  · exact .inr (by simp)

/-- What putting a flag makes of the SAU depends on the SAU and the parameters alone. -/
theorem putFlag_sau_congr {s t : State} (a : AlertFlag) (v : Bool) (hs : t.sau = s.sau) (hp : t.pfl = s.pfl) :
    (putFlag a v t).sau = (putFlag a v s).sau := by
  simp only [putFlag, evalAlert, State.alertDue, State.alertMask, State.profile, hs, hp]

/-- A report raised leaves the SAU, or makes REPORTS_DROPPED SET and evaluates ALERT. -/
theorem raiseReport_sau (ev : ReportEvent) (s : State) :
    (raiseReport ev s).sau = s.sau ∨ (raiseReport ev s).sau = (putFlag .reportsDropped true s).sau := by
  unfold raiseReport; dsimp only; split
  · rcases raiseReportsDropped_sau (admitReport ev s).1 with h | h
    · exact .inl (by rw [h]; simp)
    · exact .inr (h.trans (putFlag_sau_congr _ _ (by simp) ((admitReport_within ev s).pfl (by decide))))
  · exact .inl (by simp)

/-- A report raised touches no condition, no flag but REPORTS_DROPPED, and no speed field; REPORTS_DROPPED never
becomes CLEAR by it. -/
theorem raiseReport_flags (ev : ReportEvent) (s : State) :
    Sau.SameSpeed s.sau (raiseReport ev s).sau ∧ (raiseReport ev s).sau.cond = s.sau.cond ∧
      (∀ f, f ≠ .reportsDropped → (raiseReport ev s).sau.flags.get f = s.sau.flags.get f) ∧
      (s.sau.flags.reportsDropped = true → (raiseReport ev s).sau.flags.reportsDropped = true) := by
  rcases raiseReport_sau ev s with h | h <;> rw [h]
  · exact ⟨.refl _, rfl, fun _ _ => rfl, id⟩
  · exact ⟨⟨rfl, rfl, rfl, rfl, rfl, rfl⟩, rfl, fun f hf => FlagSet.get_put_of_ne _ _ hf, fun _ => rfl⟩

/-- A flag raised is SET after it; no condition, no other flag but REPORTS_DROPPED, and no speed field is touched. -/
theorem raiseFlag_flags (a : AlertFlag) (s : State) :
    Sau.SameSpeed s.sau (raiseFlag a s).sau ∧ (raiseFlag a s).sau.cond = s.sau.cond ∧
      (raiseFlag a s).sau.flags.get a = true ∧
      (∀ f, f ≠ a → f ≠ .reportsDropped → (raiseFlag a s).sau.flags.get f = s.sau.flags.get f) := by
  unfold raiseFlag; split
  · exact ⟨.refl _, rfl, ‹_›, fun _ _ _ => rfl⟩
  · dsimp only
    obtain ⟨h1, h2, h3, h4⟩ := raiseReport_flags (.alert a (putFlag a true s).sau.flags) (putFlag a true s)
    have h0 : Sau.SameSpeed s.sau (putFlag a true s).sau := ⟨rfl, rfl, rfl, rfl, rfl, rfl⟩
    refine ⟨h0.trans h1, h2, ?_, fun f hf hr => ?_⟩
    · by_cases e : a = .reportsDropped
      · subst e; exact h4 rfl
      · rw [h3 a e]; simp [putFlag, evalAlert]
    · rw [h3 f hr]; simp [putFlag, evalAlert, FlagSet.get_put, hf]

/-- What a delivery of a condition does to the SAU (R156, R157). -/
theorem deliver_flags (c : Cond) (v : Bool) (s : State) :
    Sau.SameSpeed s.sau (deliver c v s).sau ∧ (deliver c v s).sau.cond = s.sau.cond.put c v ∧
      (v = true → (deliver c v s).sau.flags.get c.flag = true) ∧
      (v = false → (s.alertLatch && c != .profileFallback) = false →
        (deliver c v s).sau.flags = s.sau.flags.put c.flag false) ∧
      (v = false → (s.alertLatch && c != .profileFallback) = true → (deliver c v s).sau.flags = s.sau.flags) ∧
      (∀ f, f ≠ c.flag → f ≠ .reportsDropped → (deliver c v s).sau.flags.get f = s.sau.flags.get f) := by
  have hl : ({ s with sau := { s.sau with cond := s.sau.cond.put c v } } : State).alertLatch = s.alertLatch := rfl
  cases v with
  | true =>
    obtain ⟨h1, h2, h3, h4⟩ := raiseFlag_flags c.flag { s with sau := { s.sau with cond := s.sau.cond.put c true } }
    have h0 : Sau.SameSpeed s.sau { s.sau with cond := s.sau.cond.put c true } := ⟨rfl, rfl, rfl, rfl, rfl, rfl⟩
    exact ⟨h0.trans h1, h2, fun _ => h3, nofun, nofun, h4⟩
  | false =>
    unfold deliver
    simp only [Bool.false_eq_true, if_false, hl]
    split
    · rename_i h
      exact ⟨⟨rfl, rfl, rfl, rfl, rfl, rfl⟩, rfl, nofun, fun _ g => absurd h (by simp [g]), fun _ _ => rfl, fun _ _ _ => rfl⟩
    · rename_i h
      exact ⟨⟨rfl, rfl, rfl, rfl, rfl, rfl⟩, rfl, nofun, fun _ _ => rfl, fun _ g => absurd g h,
        fun f hf _ => FlagSet.get_put_of_ne _ _ hf⟩

/-! ## ALERT follows the flags -/

theorem evalAlert_alertInv (s : State) : AlertInv (evalAlert s) := rfl

theorem putFlag_alertInv (a : AlertFlag) (v : Bool) (s : State) : AlertInv (putFlag a v s) := rfl

/-- A state with the same SAU and the same parameters keeps the law of ALERT. -/
theorem AlertInv.congr {s t : State} (h : AlertInv s) (hs : t.sau.flags = s.sau.flags) (ha : t.sau.alert = s.sau.alert)
    (hp : t.profile = s.profile) : AlertInv t := by
  unfold AlertInv State.alertDue State.alertMask at *; rw [hs, ha, hp]; exact h

theorem raiseReport_alertInv {ev : ReportEvent} {s : State} (h : AlertInv s) : AlertInv (raiseReport ev s) := by
  have hp : (raiseReport ev s).profile = s.profile := (raiseReport_within ev s).profile (by decide)
  rcases raiseReport_sau ev s with e | e
  · exact h.congr (by rw [e]) (by rw [e]) hp
  · exact (putFlag_alertInv .reportsDropped true s).congr (by rw [e]) (by rw [e]) hp

theorem raiseReportsDropped_alertInv {s : State} (h : AlertInv s) : AlertInv (raiseReportsDropped s) := by
  have hp : (raiseReportsDropped s).profile = s.profile := (raiseReportsDropped_within s).profile (by decide)
  rcases raiseReportsDropped_sau s with e | e
  · exact h.congr (by rw [e]) (by rw [e]) hp
  · exact (putFlag_alertInv .reportsDropped true s).congr (by rw [e]) (by rw [e]) hp

theorem raiseFlag_alertInv {a : AlertFlag} {s : State} (h : AlertInv s) : AlertInv (raiseFlag a s) := by
  unfold raiseFlag; split
  · exact h
  · exact raiseReport_alertInv (putFlag_alertInv ..)

theorem deliver_alertInv {c : Cond} {v : Bool} {s : State} (h : AlertInv s) : AlertInv (deliver c v s) := by
  have h' : AlertInv { s with sau := { s.sau with cond := s.sau.cond.put c v } } := h.congr rfl rfl rfl
  unfold deliver; dsimp only; split
  · exact raiseFlag_alertInv h'
  · split
    · exact h'
    · exact putFlag_alertInv ..

end Sys2Proof.Machine
end

