-- ==== Sys2Proof/Laws/Formats.lean ====
section
/-! SUPPORT. The lengths of the byte layouts of chapter 11. -/

namespace Sys2Proof.Machine

@[simp] theorem leBytes_length : ∀ n v, (leBytes n v).length = n
  | 0, _ => rfl
  | n + 1, v => by simp [leBytes, leBytes_length n]

@[simp] theorem zeroBytes_length (n : Nat) : (zeroBytes n).length = n := List.length_replicate

theorem padTo_length {n : Nat} {l : List Byte} (h : l.length ≤ n) : (padTo n l).length = n := by
  simp [padTo]; omega

@[simp] theorem headerBytes_length (s : State) (p : Profile) (serial : BitVec 32) (slot : Nat) (ms : Pos)
    (synth : Bool) : (headerBytes s p serial slot ms synth).length = 64 := by
  simp only [headerBytes, List.length_append, leBytes_length, zeroBytes_length]

@[simp] theorem trailerChannelBytes_length (s : State) (e : FrameEntry) (c : Ch) :
    (trailerChannelBytes s e c).length = 16 := by
  simp only [trailerChannelBytes, List.length_append, leBytes_length, zeroBytes_length]

theorem trailerChannels_length (s : State) (e : FrameEntry) :
    ((Ch.all.map (trailerChannelBytes s e)).flatten).length = 64 := by
  simp only [Ch.all, List.map_cons, List.map_nil, List.flatten_cons, List.flatten_nil, List.length_append,
    trailerChannelBytes_length, List.length_nil]

@[simp] theorem trailerBytes_length (s : State) (e : FrameEntry) (me : Pos) (kind : EndKind) (rows st : Nat) :
    (trailerBytes s e me kind rows st).length = 128 := by
  have h := trailerChannels_length s e
  unfold trailerBytes
  generalize (Ch.all.map (trailerChannelBytes s e)).flatten = l at h ⊢
  simp only [List.length_append, leBytes_length, zeroBytes_length, h]

/-- A trailer ends in its serial. -/
theorem trailerBytes_drop (s : State) (e : FrameEntry) (me : Pos) (kind : EndKind) (rows st : Nat) :
    (trailerBytes s e me kind rows st).drop 124 = leBytes 4 e.serial.toNat := by
  have h := trailerBytes_length s e me kind rows st
  unfold trailerBytes at h ⊢
  rw [List.length_append, leBytes_length] at h
  exact List.drop_left' (by omega)

/-- A trailer begins with its serial. -/
theorem trailerBytes_take (s : State) (e : FrameEntry) (me : Pos) (kind : EndKind) (rows st : Nat) :
    (trailerBytes s e me kind rows st).take 4 = leBytes 4 e.serial.toNat := by
  unfold trailerBytes
  simp only [List.append_assoc]
  exact List.take_left' (leBytes_length ..)

@[simp] theorem Report.stampBytes_length (r : Report) : r.stampBytes.length = 8 := by
  simp only [Report.stampBytes, List.length_append, leBytes_length]

@[simp] theorem ReportEvent.payload_length (ev : ReportEvent) : ev.payload.length = 16 := by
  cases ev with
  | status => rfl
  | _ => exact padTo_length (by simp only [List.length_append, leBytes_length, zeroBytes_length]; decide)

theorem recordBytes_length (seq : BitVec 32) (priority dropped : Nat) (b : RecordBody) :
    (recordBytes seq priority dropped b).length = 8 + b.tail.length := by
  simp only [recordBytes, List.length_append, leBytes_length]

/-- Every record of a group holds 24 bytes after its first eight. -/
theorem groupBodies_tail (s : State) (r : Report) : ∀ b ∈ groupBodies s r, b.tail.length = 24 := by
  unfold groupBodies
  split
  · intro b hb
    simp only [statusBodies, Ch.all, List.map_cons, List.map_nil, List.flatten_cons, List.flatten_nil,
      List.cons_append, List.nil_append, List.mem_cons, List.not_mem_nil, or_false] at hb
    rcases hb with rfl | rfl | rfl | rfl | rfl | rfl | rfl | rfl | rfl <;>
      simp only [List.length_append, leBytes_length, zeroBytes_length, Report.stampBytes_length]
  · intro b hb
    simp only [List.mem_singleton] at hb
    subst hb
    simp only [List.length_append, Report.stampBytes_length, ReportEvent.payload_length]

/-- A STATUS group has nine records, every other one (R144). -/
theorem groupBodies_length (s : State) (r : Report) :
    (groupBodies s r).length = if r.event = .status then 9 else 1 := by
  unfold groupBodies
  split
  · rename_i h; simp [h, statusBodies, Ch.all]
  · rename_i h; rw [if_neg (fun e => h e)]; rfl

end Sys2Proof.Machine
end

