-- ==== Sys2Proof/Laws/Frames.lean ====
section
/-! SUPPORT. What the Frame Table's operations read, said once: states that agree on the Frame Table, the active
profile, the loader state, WMAX, TIME, the pending-trigger queues, the line contexts, SPEED_LOW and the speed average
are taken by each of them to states that agree on these again. -/

namespace Sys2Proof.Machine

/-- `t` agrees with `s` on everything that the Frame Table's operations read. -/
structure SameFrames (s t : State) : Prop where
  frt : t.frt = s.frt
  active : t.pfl.active = s.pfl.active
  loader : t.pfl.loader = s.pfl.loader
  wmax : t.wpu.wmax = s.wpu.wmax
  time : t.wpu.time = s.wpu.time
  ptq : ∀ c, (t.tgn.get c).ptq = (s.tgn.get c).ptq
  state : ∀ c, (t.lnb.get c).state = (s.lnb.get c).state
  ctx : ∀ c, (t.lnb.get c).ctx = (s.lnb.get c).ctx
  speedLow : t.sau.cond.speedLow = s.sau.cond.speedLow
  speedAvg : t.sau.speedAvg = s.sau.speedAvg

namespace SameFrames

theorem refl (s : State) : SameFrames s s :=
  ⟨rfl, rfl, rfl, rfl, rfl, fun _ => rfl, fun _ => rfl, fun _ => rfl, rfl, rfl⟩

theorem symm {s t : State} (h : SameFrames s t) : SameFrames t s :=
  ⟨h.frt.symm, h.active.symm, h.loader.symm, h.wmax.symm, h.time.symm, fun c => (h.ptq c).symm,
    fun c => (h.state c).symm, fun c => (h.ctx c).symm, h.speedLow.symm, h.speedAvg.symm⟩

theorem trans {s t u : State} (h : SameFrames s t) (g : SameFrames t u) : SameFrames s u :=
  ⟨g.frt.trans h.frt, g.active.trans h.active, g.loader.trans h.loader, g.wmax.trans h.wmax, g.time.trans h.time,
    fun c => (g.ptq c).trans (h.ptq c), fun c => (g.state c).trans (h.state c), fun c => (g.ctx c).trans (h.ctx c),
    g.speedLow.trans h.speedLow, g.speedAvg.trans h.speedAvg⟩

theorem profile {s t : State} (h : SameFrames s t) : t.profile = s.profile := by simp only [State.profile, h.active]

theorem setFrt {s t : State} (h : SameFrames s t) (f : Frt) : SameFrames { s with frt := f } { t with frt := f } :=
  { h with frt := rfl }

theorem setEntries {s t : State} (h : SameFrames s t) (es : List FrameEntry) :
    SameFrames (s.setEntries es) (t.setEntries es) := by
  have := h.setFrt { s.frt with entries := es }
  simpa only [State.setEntries, h.frt] using this

theorem countNotice {s t : State} (h : SameFrames s t) (k : CountKind) (c : Ch) (w : Pos) :
    SameFrames (countNotice k c w s) (countNotice k c w t) := by
  simpa only [Machine.countNotice, h.frt] using h.setEntries (bumpEntry k c w s.frt.entries)

/-! ## Reports -/

/-- A report raised changes nothing of what the Frame Table reads. -/
theorem raise (ev : ReportEvent) (s : State) : SameFrames s (raiseReport ev s) :=
  have w := raiseReport_within ev s
  have f := raiseReport_flags ev s
  { frt := w.frt (by decide), active := by rw [w.pfl (by decide)], loader := by rw [w.pfl (by decide)]
    wmax := by rw [w.wpu (by decide)], time := by rw [w.wpu (by decide)]
    ptq := fun _ => by rw [w.tgn (by decide)], state := fun _ => by rw [w.lnb (by decide)]
    ctx := fun _ => by rw [w.lnb (by decide)], speedLow := by rw [f.2.1], speedAvg := f.1.speedAvg }

theorem raiseReport {s t : State} (h : SameFrames s t) (e f : ReportEvent) :
    SameFrames (raiseReport e s) (raiseReport f t) := (raise e s).symm.trans (h.trans (raise f t))

/-- Replacing a channel's LNB state by one with the same state and context changes nothing of it. -/
theorem setLnb (s : State) (c : Ch) (l : Lnb) (hs : l.state = (s.lnb.get c).state) (hc : l.ctx = (s.lnb.get c).ctx) :
    SameFrames s (s.setLnb c l) := by
  constructor <;> intros <;> simp only [State.setLnb, Quad.get_set] <;> try split
  all_goals first | rfl | (subst_vars; assumption)

/-- A LINE_FAULT event changes nothing of what the Frame Table reads. -/
theorem fault (c : Ch) (k : FaultKind) (i : Nat) (s : State) : SameFrames s (lineFault c k i s) :=
  (setLnb s c { s.lnb.get c with totals := (s.lnb.get c).totals.bump k } rfl rfl).trans (raise _ _)

/-- A flag raised changes nothing of it. -/
theorem flag (a : AlertFlag) (s : State) : SameFrames s (raiseFlag a s) :=
  have w := raiseFlag_within a s
  have f := raiseFlag_flags a s
  { frt := w.frt (by decide), active := by rw [w.pfl (by decide)], loader := by rw [w.pfl (by decide)]
    wmax := by rw [w.wpu (by decide)], time := by rw [w.wpu (by decide)]
    ptq := fun _ => by rw [w.tgn (by decide)], state := fun _ => by rw [w.lnb (by decide)]
    ctx := fun _ => by rw [w.lnb (by decide)], speedLow := by rw [f.2.1], speedAvg := f.1.speedAvg }

/-- The delivery of a condition other than SPEED_LOW changes nothing of it. -/
theorem delivery (c : Cond) (v : Bool) (hc : c ≠ .speedLow) (s : State) : SameFrames s (deliver c v s) :=
  have w := deliver_within c v s
  have f := deliver_flags c v s
  { frt := w.frt (by decide), active := by rw [w.pfl (by decide)], loader := by rw [w.pfl (by decide)]
    wmax := by rw [w.wpu (by decide)], time := by rw [w.wpu (by decide)]
    ptq := fun _ => by rw [w.tgn (by decide)], state := fun _ => by rw [w.lnb (by decide)]
    ctx := fun _ => by rw [w.lnb (by decide)]
    speedLow := by
      have := Conditions.get_put s.sau.cond c .speedLow v
      rw [if_neg (Ne.symm hc)] at this
      rw [f.2.1]; exact this
    speedAvg := f.1.speedAvg }

/-- A replaced MKT state changes nothing of it. -/
theorem setMkt (s : State) (m : Mkt) : SameFrames s (s.setMkt m) :=
  ⟨rfl, rfl, rfl, rfl, rfl, fun _ => rfl, fun _ => rfl, fun _ => rfl, rfl, rfl⟩

/-- The delivery of both repeat-length conditions changes nothing of it. -/
theorem deliveries (long short : Bool) (s : State) : SameFrames s (deliverRepeat long short s) :=
  (delivery .repeatLong long (by decide) s).trans (delivery .repeatShort short (by decide) _)

/-! ## Closure and completion -/

theorem closeEntry {s t : State} (h : SameFrames s t) (p : Profile) (e : FrameEntry) :
    SameFrames (closeEntry p e s) (closeEntry p e t) := by
  unfold Machine.closeEntry
  cases e.fin with
  | none => exact h
  | some x =>
    obtain ⟨me, kind⟩ := x
    dsimp only
    have hst : t.statusOf p e kind = s.statusOf p e kind := by simp only [State.statusOf, h.speedLow]
    have hb : trailerBytes t e me kind = trailerBytes s e me kind := by
      have hc : trailerChannelBytes t e = trailerChannelBytes s e := by
        funext c
        have : t.enabled c = s.enabled c := by unfold State.enabled; rw [h.profile]
        unfold trailerChannelBytes; rw [this]
      have hn : t.profileNumber = s.profileNumber := by unfold State.profileNumber; rw [h.active]
      unfold trailerBytes
      rw [hc, hn, h.time, h.wmax, h.speedAvg]
    rw [hst, hb]
    have counted : ∀ u : State, SameFrames u (countClosure p u) := fun u => by
      unfold countClosure; split
      · exact ⟨rfl, rfl, rfl, rfl, rfl, fun _ => rfl, fun _ => rfl, fun _ => rfl, rfl, rfl⟩
      · split <;> exact ⟨rfl, rfl, rfl, rfl, rfl, fun _ => rfl, fun _ => rfl, fun _ => rfl, rfl, rfl⟩
    refine (counted _).symm.trans (SameFrames.trans ?_ (counted _))
    generalize ({ kind := .trailer, slot := e.slot, serial := e.serial, writes := _ } : FrameItem) = i
    generalize ReportEvent.frameDone e.serial e.slot _ = ev
    have pushed : SameFrames (s.pushItem i) (t.pushItem i) := by
      simpa only [State.pushItem, h.frt] using h.setFrt { s.frt with writeList := s.frt.writeList ++ [i] }
    have g := pushed.raiseReport ev ev
    rw [g.frt]
    exact g.setEntries _

theorem closeAll (p : Profile) (l : List FrameEntry) {s t : State} (h : SameFrames s t) :
    SameFrames (l.foldl (fun t e => Machine.closeEntry p e t) s) (l.foldl (fun t e => Machine.closeEntry p e t) t) := by
  induction l generalizing s t with
  | nil => exact h
  | cons e l ih => exact ih (h.closeEntry p e)

theorem evaluate {s t : State} (h : SameFrames s t) (cs : List Ch) (sel : FrameEntry → Bool) :
    SameFrames (evaluate cs sel s) (evaluate cs sel t) := by
  unfold Machine.evaluate State.withProfile
  rw [h.profile]
  cases s.profile with
  | none => exact h
  | some p =>
    dsimp only
    have hd : t.markDone p cs = s.markDone p cs := by
      have : ∀ e c, t.doneFor p e c = s.doneFor p e c := fun e c => by
        simp only [State.doneFor, State.horizon, State.headClear, State.ctxClear, h.wmax, h.ptq, h.ctx]
      funext e; simp only [State.markDone, this]
    have g := h.setEntries (s.frt.entries.map fun e => if sel e then s.markDone p cs e else e)
    rw [h.frt, hd]
    unfold closeComplete
    rw [g.frt]
    exact closeAll p _ g

/-! ## Marks -/

theorem boundAtMark {s t : State} (h : SameFrames s t) (m : Mark) :
    SameFrames (boundAtMark m s).1 (boundAtMark m t).1 ∧ (boundAtMark m t).2 = (boundAtMark m s).2 := by
  unfold Machine.boundAtMark
  rw [h.frt]
  cases s.frt.entries.getLast? with
  | none => exact ⟨h, rfl⟩
  | some e =>
    dsimp only
    split
    · exact ⟨h.setEntries _, rfl⟩
    · split
      · exact ⟨h.setEntries _, rfl⟩
      · exact ⟨h, rfl⟩

theorem exitFences {s t : State} (h : SameFrames s t) : SameFrames (exitFences s) (exitFences t) := by
  unfold Machine.exitFences
  have ha : t.anyFenced = s.anyFenced := by simp only [State.anyFenced, h.state]
  rw [ha]
  split
  · have told := delivery .channelFenced false (by decide)
    refine (told _).symm.trans (SameFrames.trans ?_ (told _))
    simp only [State.forChannels, Ch.all, List.foldl_cons, List.foldl_nil]
    have one : ∀ (c : Ch) (u v : State), SameFrames u v →
        SameFrames (if (u.lnb.get c).state == .fenced then u.setLnb c (u.lnb.get c).leaveFence else u)
          (if (v.lnb.get c).state == .fenced then v.setLnb c (v.lnb.get c).leaveFence else v) := fun c u v g => by
      rw [g.state]
      split
      · exact { g with
          state := fun d => by simp only [State.setLnb, Quad.get_set, Lnb.leaveFence]; split; rfl; exact g.state d
          ctx := fun d => by simp only [State.setLnb, Quad.get_set, Lnb.leaveFence]; split; rfl; exact g.ctx d }
      · exact g
    exact one _ _ _ (one _ _ _ (one _ _ _ (one _ _ _ h)))
  · exact h

theorem openOrSkip {s t : State} (h : SameFrames s t) (p : Profile) (m : Mark) :
    SameFrames (openOrSkip p m s) (openOrSkip p m t) := by
  unfold Machine.openOrSkip
  have hd : t.draining = s.draining := by simp only [State.draining, h.loader]
  have hf : t.findSlot p = s.findSlot p := by
    have : t.slotFree = s.slotFree := by funext j; simp only [State.slotFree, h.frt]
    simp only [State.findSlot, this, h.frt]
  rw [hd, hf, h.frt]
  dsimp only
  split
  · exact h.raiseReport _ _
  · split
    · exact h.raiseReport _ _
    · split
      · exact h.raiseReport _ _
      · unfold openEntry
        have hh : ∀ x j y z, headerBytes t p x j y z = headerBytes s p x j y z := fun x j y z => by
          simp only [headerBytes, State.profileNumber, State.channelSet, State.enabled, h.profile, h.active, h.time]
        dsimp only
        rw [h.frt]
        simp only [hh]
        split
        · exact (h.setFrt _).exitFences
        · exact h.setFrt _

theorem deliverMark {s t : State} (h : SameFrames s t) (m : Mark) : SameFrames (deliverMark m s) (deliverMark m t) := by
  unfold Machine.deliverMark State.withProfile
  rw [h.profile]
  cases s.profile with
  | none => exact h
  | some p =>
    dsimp only
    rw [h.frt]
    generalize ({ s.frt with serial := s.frt.serial + 1 } : Frt) = f
    have b := (h.setFrt f).boundAtMark m
    have o := b.1.openOrSkip p m
    rw [b.2]
    cases (Machine.boundAtMark m { s with frt := f }).2 with
    | none => exact o
    | some _ => exact o.evaluate _ _

theorem deliverLoss {s t : State} (h : SameFrames s t) (b : Pos) (cause : LossCause) :
    SameFrames (deliverLoss b cause s) (deliverLoss b cause t) := by
  unfold Machine.deliverLoss
  rw [h.frt]
  split
  · exact h
  · split
    · exact (h.setEntries _).evaluate _ _
    · exact h

end SameFrames

/-! ## The exit from FENCED -/

theorem forChannels_lnb (f : Ch → State → State) (g : Lnb → Lnb)
    (h : ∀ c t, (f c t).lnb = t.lnb.set c (g (t.lnb.get c))) (s : State) (c : Ch) :
    (s.forChannels f).lnb.get c = g (s.lnb.get c) := by
  simp only [State.forChannels, Ch.all, List.foldl_cons, List.foldl_nil, h]
  cases c <;> simp [Quad.get_set]

/-- What an exit from FENCED makes of each channel (R70). -/
theorem exitFences_lnb (s : State) (c : Ch) :
    (exitFences s).lnb.get c =
      if (s.lnb.get c).state = .fenced then (s.lnb.get c).leaveFence else s.lnb.get c := by
  unfold exitFences; split
  · rw [(deliver_within _ _ _).lnb (by decide),
      forChannels_lnb _ (fun l => if l.state == .fenced then l.leaveFence else l)]
    · by_cases h : (s.lnb.get c).state = .fenced <;> simp [h]
    · intro c t; split
      · rfl
      · cases c <;> rfl
  · rename_i h
    rw [if_neg]
    intro h2; apply h
    simp only [State.anyFenced, List.any_eq_true]
    exact ⟨c, by cases c <;> decide, by simp [h2]⟩

/-- States that agree for the Frame Table, and on the channels, have their channels agree after a mark (R70, R99). -/
theorem deliverMark_lnb {s t : State} (h : SameFrames s t) (hl : t.lnb = s.lnb) (m : Mark) :
    (deliverMark m t).lnb = (deliverMark m s).lnb := by
  have opened (p : Profile) {u v : State} (g : SameFrames u v) (gl : v.lnb = u.lnb) :
      (openOrSkip p m v).lnb = (openOrSkip p m u).lnb := by
    have hd : v.draining = u.draining := by simp only [State.draining, g.loader]
    have hf : v.findSlot p = u.findSlot p := by
      have : v.slotFree = u.slotFree := by funext j; simp only [State.slotFree, g.frt]
      simp only [State.findSlot, this, g.frt]
    have raised : ∀ e f, (raiseReport e v).lnb = (raiseReport f u).lnb := fun e f => by
      rw [(raiseReport_within ..).lnb (by decide), (raiseReport_within ..).lnb (by decide), gl]
    unfold openOrSkip
    rw [hd, hf, g.frt]
    dsimp only
    split
    · exact raised _ _
    · split
      · exact raised _ _
      · split
        · exact raised _ _
        · unfold openEntry; dsimp only
          split
          · exact Quad.ext_get fun c => by simp only [exitFences_lnb, gl]
          · exact gl
  unfold deliverMark State.withProfile
  rw [h.profile]
  cases s.profile with
  | none => exact hl
  | some p =>
    dsimp only
    rw [h.frt]
    generalize ({ s.frt with serial := s.frt.serial + 1 } : Frt) = f
    have b := (h.setFrt f).boundAtMark m
    have o := opened p b.1 (by
      rw [(boundAtMark_within ..).lnb (by decide), (boundAtMark_within ..).lnb (by decide)]; exact hl)
    rw [b.2]
    cases (boundAtMark m { s with frt := f }).2 with
    | none => exact o
    | some _ =>
      dsimp only
      rw [(evaluate_within ..).lnb (by decide), (evaluate_within ..).lnb (by decide)]; exact o

/-- What it makes of the SAU: CHANNEL_FENCED delivered as not holding, where a channel was FENCED. -/
theorem exitFences_sau (s : State) :
    (exitFences s).sau.cond = (if s.anyFenced then { s.sau.cond with channelFenced := false } else s.sau.cond) ∧
      (exitFences s).sau.flags.channelFenced = (s.sau.flags.channelFenced && (!s.anyFenced || s.alertLatch)) := by
  unfold exitFences
  by_cases ha : s.anyFenced = true
  · rw [if_pos ha, if_pos ha]
    generalize hu : s.forChannels _ = u
    have h : u.sau = s.sau ∧ u.pfl = s.pfl := by
      have one : ∀ (f : Ch → State → State), (∀ c t, (f c t).sau = t.sau ∧ (f c t).pfl = t.pfl) →
          (s.forChannels f).sau = s.sau ∧ (s.forChannels f).pfl = s.pfl := fun f hf => by
        simp [State.forChannels, Ch.all, hf]
      rw [← hu]; exact one _ fun c t => by split <;> exact ⟨rfl, rfl⟩
    have hl : u.alertLatch = s.alertLatch := by simp only [State.alertLatch, State.profile, h.2]
    have d := deliver_flags .channelFenced false u
    rw [h.1, hl] at d
    refine ⟨d.2.1, ?_⟩
    cases hb : s.alertLatch
    · rw [d.2.2.2.1 rfl (by simp [hb])]; simp [FlagSet.put, Cond.flag, ha]
    · rw [d.2.2.2.2.1 rfl (by simp [hb])]; simp
  · rw [if_neg ha, if_neg ha]; simp [ha]

end Sys2Proof.Machine
end

