-- ==== Sys2Proof/Laws/Keeps.lean ====
section
/-! SUPPORT. One law for invariants: a property that every operation of a command keeps is kept by every step. -/

namespace Sys2Proof.Machine

/-- Every operation that an event of the part or a command from outside is made of keeps `P`. -/
structure KeptByAll (P : State → Prop) : Prop where
  pending : ∀ s q, P s → P { s with pending := q }
  takeQualifies : ∀ s, P s → P (takeQualifies s)
  takeWindow : ∀ s, P s → P (takeWindow s)
  takeLatency : ∀ c s, P s → P (takeLatency c s)
  takeFire : ∀ c s, P s → P (takeFire c s)
  takeStall : ∀ c s, P s → P (takeStall c s)
  takeFence : ∀ c s, P s → P (takeFence c s)
  takePulseEnd : ∀ c s, P s → P (takePulseEnd c s)
  takeInterval : ∀ s, P s → P (takeInterval s)
  takeBlockEnd : ∀ s, P s → P (takeBlockEnd s)
  takeDebounce : ∀ s, P s → P (takeDebounce s)
  takeStatus : ∀ s, P s → P (takeStatus s)
  takeDrainEnd : ∀ s, P s → P (takeDrainEnd s)
  takeGrant : ∀ s, P s → P (takeGrant s)
  takeLoadingStart : ∀ s, P s → P (takeLoadingStart s)
  formReportGroup : ∀ s, P s → P (formReportGroup s)
  addMicrosecond : ∀ s, s.inReset = false → P s → P s.addMicrosecond
  resetBlocks : ∀ k s, P s → P (resetBlocks k s)
  endReset : ∀ s, P s → P (endReset s)
  setEncoderPins : ∀ a b r s, P s → P (s.setEncoderPins a b r)
  observePair : ∀ q s, s.inReset = false → P s → P (observePair q s)
  setMark : ∀ l s, P s → P { s with pins := { s.pins with mark := l } }
  observeMark : ∀ l s, s.inReset = false → P s → P (observeMark l s)
  setHold : ∀ l s, P s → P (s.setHold l)
  acceptRequest : ∀ r s, r.fromGrabber = true → s.inReset = false → P s → P (acceptRequest r s)
  admitPiece : ∀ s, s.inReset = false → P s → P (admitPiece s)
  admitPass : ∀ s, s.inReset = false → P s → P (admitPass s)
  admitFrameItem : ∀ s, s.inReset = false → P s → P (admitFrameItem s)
  admitRecord : ∀ s, s.inReset = false → P s → P (admitRecord s)
  admitMessage : ∀ s, s.inReset = false → P s → P (admitMessage s)
  sendEgress : ∀ s, s.inReset = false → P s → P (sendEgress s)
  takeDownstream : ∀ r s, s.inReset = false → P s → P (takeDownstream r s)
  sendDownstream : ∀ s, s.inReset = false → P s → P (sendDownstream s)
  hostLinkUp : ∀ s, s.inReset = false → P s → P (hostLinkUp s)
  linkReset : ∀ s, s.inReset = false → P s → P (linkReset s)
  grabberTrained : ∀ s, s.inReset = false → P s → P (grabberTrained s)
  grabberLost : ∀ s, s.inReset = false → P s → P (grabberLost s)
  setClearPin : ∀ l s, P s → P (s.setClearPin l)
  sampleClear : ∀ l s, s.inReset = false → P s → P (sampleClear l s)
  setPsel : ∀ v s, P s → P { s with pins := { s.pins with psel := v } }
  observePsel : ∀ v s, s.inReset = false → P s → P (observePsel v s)
  setSreqPin : ∀ l s, P s → P (s.setSreqPin l)
  assertSreq : ∀ s, s.inReset = false → P s → P (assertSreq s)
  releaseSreq : ∀ s, s.inReset = false → P s → P (releaseSreq s)
  takeReadEnd : ∀ h r s, s.inReset = false → P s → P (takeReadEnd h r s)

variable {P : State → Prop}

theorem forChannels_keeps {f : Ch → State → State} (h : ∀ c s, P s → P (f c s)) (s : State) (hs : P s) :
    P (s.forChannels f) := by
  unfold State.forChannels
  generalize Ch.all = l
  induction l generalizing s with
  | nil => exact hs
  | cons c l ih => exact ih _ (h c s hs)

theorem repeatTimes_keeps {f : State → State} (h : ∀ s, P s → P (f s)) :
    ∀ n s, P s → P (repeatTimes f n s)
  | 0, _, hs => hs
  | n + 1, s, hs => repeatTimes_keeps h n _ (h s hs)

theorem settleChannel_keeps (k : KeptByAll P) (c : Ch) (s : State) (hs : P s) : P (settleChannel c s) :=
  k.takePulseEnd c _ (k.takeFence c _ (k.takeStall c _ (k.takeFire c _ (k.takeLatency c _ hs))))

theorem settle_keeps (k : KeptByAll P) (s : State) (hs : P s) : P (settle s) := by
  unfold settle
  dsimp only
  have h1 := forChannels_keeps (settleChannel_keeps k) _ (k.takeWindow _ (k.takeQualifies s hs))
  generalize (takeWindow (takeQualifies s)).forChannels settleChannel = t at h1 ⊢
  have h2 := k.takeDebounce _ (k.takeBlockEnd _ (k.takeInterval t h1))
  generalize takeDebounce (takeBlockEnd (takeInterval t)) = u at h2 ⊢
  have h3 := repeatTimes_keeps k.takeStatus u.rpu.statusDue u h2
  generalize repeatTimes takeStatus u.rpu.statusDue u = v at h3 ⊢
  exact k.formReportGroup _ (k.takeLoadingStart _ (k.takeGrant _ (k.takeDrainEnd v h3)))

theorem settle_inReset (s : State) : (settle s).inReset = s.inReset := (settle_within s).inReset (by decide)

theorem live_keeps {f : State → State} (h : ∀ s, P s → P (f s)) (s : State) (hs : P s) : P (live f s) := by
  unfold live; split
  · exact hs
  · exact h s hs

theorem outside_keeps (k : KeptByAll P) {f : State → State} (h : ∀ s, s.inReset = false → P s → P (f s)) (s : State)
    (hs : P s) : P (outside f s) := by
  unfold outside; split
  · exact hs
  · rename_i hr
    exact h _ ((settle_inReset s).trans (eq_false_of_ne_true hr)) (settle_keeps k s hs)

/-- The shape of a command that keeps a line's level while a reset is held. -/
theorem held_keeps (k : KeptByAll P) {f g : State → State} (hf : ∀ s, P s → P (f s))
    (hg : ∀ s, s.inReset = false → P s → P (g s)) (s : State) (hs : P s) :
    P (if s.inReset then f s else g (settle s)) := by
  split
  · exact hf s hs
  · rename_i hr
    exact hg _ ((settle_inReset s).trans (eq_false_of_ne_true hr)) (settle_keeps k s hs)

theorem tick_keeps (k : KeptByAll P) (s : State) (hs : P s) : P (tick s) := by
  unfold tick; split
  · exact hs
  · rename_i hr
    have h0 : (settle s).inReset = false := (settle_inReset s).trans (eq_false_of_ne_true hr)
    have h1 := settle_keeps k s hs
    generalize settle s = t at h0 h1 ⊢
    exact k.sampleClear t.addMicrosecond.pins.clear t.addMicrosecond h0 (k.addMicrosecond t h0 h1)

/-- What every operation keeps, every command keeps. -/
theorem exec_keeps (k : KeptByAll P) (c : Instr) (s t : State) (hs : P s) (h : exec c s = .next t) : P t := by
  cases c with
  | powerOn => cases h; exact k.resetBlocks _ _ hs
  | resetPin => cases h; exact k.resetBlocks _ _ hs
  | resetEnd => cases h; exact k.endReset _ hs
  | encoderTransition a b r =>
    cases h
    exact held_keeps k (f := fun s => s.setEncoderPins a b r)
      (g := fun s => observePair (a, b) (s.setEncoderPins a b r)) (k.setEncoderPins a b r)
      (fun s h hs => k.observePair _ _ h (k.setEncoderPins a b r s hs)) s hs
  | markChange l => cases h; exact held_keeps k (k.setMark l) (k.observeMark l) s hs
  | candidateQualifies => cases h; exact live_keeps k.takeQualifies s hs
  | windowRunsOut => cases h; exact live_keeps k.takeWindow s hs
  | fire c => cases h; exact live_keeps (k.takeFire c) s hs
  | triggerPulseEnd c => cases h; exact live_keeps (k.takePulseEnd c) s hs
  | latencyExpiry c => cases h; exact live_keeps (k.takeLatency c) s hs
  | stall c => cases h; exact live_keeps (k.takeStall c) s hs
  | holdChange l => cases h; exact held_keeps k (k.setHold l) (fun s _ => k.setHold l s) s hs
  | grabberRequestAccept r =>
    simp only [exec, execGrabberRequestAccept] at h
    split at h
    · cases h; exact outside_keeps k (fun s => k.acceptRequest r s ‹_›) s hs
    · cases h
  | pieceAdmission => cases h; exact outside_keeps k k.admitPiece s hs
  | passThroughAdmission => cases h; exact outside_keeps k k.admitPass s hs
  | fence c => cases h; exact live_keeps (k.takeFence c) s hs
  | frameItemAdmission => cases h; exact outside_keeps k k.admitFrameItem s hs
  | reportGroupForm => cases h; exact live_keeps k.formReportGroup s hs
  | reportRecordAdmission => cases h; exact outside_keeps k k.admitRecord s hs
  | messageInterrupt => cases h; exact outside_keeps k k.admitMessage s hs
  | statusEvent => cases h; exact live_keeps k.takeStatus s hs
  | egressSend => cases h; exact outside_keeps k k.sendEgress s hs
  | downstreamRequest r => cases h; exact outside_keeps k (k.takeDownstream r) s hs
  | downstreamSend => cases h; exact outside_keeps k k.sendDownstream s hs
  | hostLinkFirstUp =>
    cases h; refine outside_keeps k (fun s h hs => ?_) s hs
    unfold hostFirstUp; split
    · exact hs
    · exact k.hostLinkUp _ h hs
  | hostLinkReset =>
    cases h; refine outside_keeps k (fun s h hs => ?_) s hs
    unfold hostReset; split
    · exact k.linkReset _ h hs
    · exact hs
  | hostLinkReturn =>
    cases h; refine outside_keeps k (fun s h hs => ?_) s hs
    unfold hostReturn; split
    · exact k.hostLinkUp _ h hs
    · exact hs
  | grabberLinkTrained => cases h; exact outside_keeps k k.grabberTrained s hs
  | grabberLinkLoss => cases h; exact outside_keeps k k.grabberLost s hs
  | speedIntervalExpiry => cases h; exact live_keeps k.takeInterval s hs
  | speedBlockEnd => cases h; exact live_keeps k.takeBlockEnd s hs
  | clearPulse l =>
    cases h
    exact tick_keeps k _ (k.setClearPin l s hs)
  | pselChange v => cases h; exact held_keeps k (k.setPsel v) (k.observePsel v) s hs
  | pselDebounceExpiry => cases h; exact live_keeps k.takeDebounce s hs
  | drainEnd => cases h; exact live_keeps k.takeDrainEnd s hs
  | sreqAssert => cases h; exact held_keeps k (k.setSreqPin true) k.assertSreq s hs
  | sreqRelease => cases h; exact held_keeps k (k.setSreqPin false) k.releaseSreq s hs
  | storeGrant => cases h; exact live_keeps k.takeGrant s hs
  | loadingStart => cases h; exact live_keeps k.takeLoadingStart s hs
  | loadReadEnd h' r => cases h; exact outside_keeps k (k.takeReadEnd h' r) s hs

/-- What every operation keeps, every step keeps. -/
theorem step_keeps (k : KeptByAll P) (s t : State) (hs : P s) (h : step s = .next t) : P t := by
  unfold step at h
  split at h
  · cases h; exact tick_keeps k s hs
  · exact exec_keeps k _ _ _ (k.pending _ _ hs) h

end Sys2Proof.Machine
end

