-- ==== Sys2Proof/Laws/Loads.lean ====
section
/-! SUPPORT. The read of a load: what is judged of the store's bytes, and the transactions that bring them. -/

namespace Sys2Proof.Machine

theorem recordRead_mem (h : List Byte) (n : BitVec 2) :
    recordRead n ∈ loadTransactions h n ↔ headerAcceptable h = true ∧ targetCounted h n = true := by
  by_cases c : headerAcceptable h = true ∧ targetCounted h n = true
  · simp [loadTransactions, c]
  · have : (headerAcceptable h && targetCounted h n) = false := by
      rw [← Bool.not_eq_true, Bool.and_eq_true]; exact c
    simp [loadTransactions, this, c, recordRead, headerRead, portRead, Config.profileRecordBytes,
      Config.storeHeaderBytes]

/-- The judgement of what the transactions read is that of the store's bytes: a record that is not read is not judged
(R164, R180). -/
theorem judge_readStore (n : BitVec 2) (h r : List Byte) : judge (readStore n h r) n = judge ⟨h, r⟩ n := by
  unfold readStore judge
  simp only [recordRead_mem]
  by_cases c1 : headerAcceptable h = true <;> by_cases c2 : targetCounted h n = true <;> simp [c1, c2]

/-- The staging copy of an acceptable load holds both, header and record. -/
theorem readStore_of_acceptable {n : BitVec 2} {h r : List Byte} (a : judge ⟨h, r⟩ n = none) :
    readStore n h r = ⟨h, r⟩ := by
  unfold readStore
  rw [if_pos]
  rw [recordRead_mem]
  unfold judge at a
  by_cases c : headerAcceptable h = true <;> by_cases d : targetCounted h n = true <;> simp [c, d] at a ⊢

end Sys2Proof.Machine
end

