-- ==== Sys2Proof/Tests/Slice0.lean ====
section
/-! SUPPORT. Tests: what the well-formedness checks refuse, single steps with the figures of the manual's worked
tables, and a state that meets the hypotheses of every statement. -/

namespace Sys2Proof.Tests

open Sys2Proof Sys2Proof.Machine

set_option Elab.async false

/-! ## A profile, a store and a running part -/

/-- The state an answer goes on to. -/
def got : Answer → Option State
  | .next t => some t
  | .fault _ => none
  | .refused _ => none

/-- Channel `c` of the sample profile: a ring of 64 lines of 4,000 bytes, every pixel one byte, 1,000 columns. -/
def sampleChannel (c : Ch) : ChanProfile :=
  { enable := c != .ch3, srcBase := 0x80000000 + 0x100000 * c.num, srcPitch := 4096, srcLines := 64,
    lineBytes := 4000, sIn := 1, mirror := false, format := .pass, shift := 0,
    stagger := (Quad.mk 100 2000 5000 9000).get c, trimLo := 0, trimHi := 1000, colBase := 1000 * c.num,
    trgPhase := c.num }

/-- The sample profile: channels 0 to 2 enabled, the window of Table 2-5, a latency limit of 12 advances. -/
def sample : Profile :=
  { reverseLimit := 3, markMin := 4, lExp := 1000, lTol := 20, missMax := 1, encInverted := false,
    markActiveLow := false, slowRepeat := false, autoResync := false, slowSpeed := false, alertLatch := false,
    alertActiveHigh := false, lLo := 985, lHi := 1015, repeatAvg := 2, spdAvg := 4, fenceCount := 2, lp := 4,
    latScale := 2, latCmp := 3, trgWidth := 10, rows := 250, slots := 4, reportEntries := 16, reportThreshold := 0,
    irqLevel := 5, rowBytes := 4096, statusPeriod := 1, slotBase := 0x200000000, reportBase := 0x100000000,
    msgAddr := 0xFEE00000, slotStride := 0xFB000, msgData := 0x31, speedInterval := 1000, spdHi := 40, spdLo := 10,
    alertMask := 0x1FF,
    pri := { start := 7, profile := 6, lock := 5, channel := 5, alert := 4, frameDone := 3, frameSkipped := 2,
             lineFault := 1, status := 1 },
    ch := Quad.of sampleChannel }

/-- The sample profile's record, written out from Tables 11-3 and 11-4 as 64 words. -/
def sampleRecord : List Byte :=
  ([0x4000003, 0x10003E8, 0x14, 0x110003D9, 0x20003F7, 0xA032004, 0x500400FA, 0x21000] ++
    [0x0, 0x2, 0x0, 0x1, 0xFEE00000, 0x0, 0xFB000, 0x31] ++
    [0x2803E8, 0x1FF000A, 0x12345567, 0x1, 0x0, 0x0, 0x0, 0x0] ++ List.replicate 8 0 ++
    [0x0, 0x0, 0x0, 0x80000000, 0x0, 0x201000, 0x7D00040, 0x64] ++
    [0x0, 0x3E8, 0x80100000, 0x0, 0x201000, 0x7D00040, 0x7D0, 0x3E80000] ++
    [0x203E8, 0x80200000, 0x0, 0x201000, 0x7D00040, 0x1388, 0x7D00000, 0x403E8] ++
    [0x80300000, 0x0, 0x1000, 0x7D00040, 0x2328, 0xBB80000, 0x603E8, 0x432F2A21]).flatMap (leBytes 4)

/-- A store header of format version 1 with four profiles (Table 11-2). -/
def sampleHeader : List Byte := [1, 0, 4] ++ List.replicate 61 0

/-- A part in RUNNING under the sample profile, both links down, at WMAX 20,002 and TIME 500. -/
def base : State :=
  { State.reset with
    inReset := false
    wpu := { Wpu.reset with encRef := some (false, false), wpos := 20002, wmax := 20002, time := 500 }
    mkt := { Mkt.reset with lAvg := 1000 }
    tgn := ⟨{ Tgn.reset with countdown := some 3 }, { Tgn.reset with countdown := some 4 },
      { Tgn.reset with countdown := some 2 }, Tgn.reset⟩
    lnb := ⟨{ Lnb.reset with state := .resync }, { Lnb.reset with state := .running, ringOfs := 5 },
      { Lnb.reset with state := .running }, Lnb.reset⟩
    sau := { Sau.reset with speedT0 := some 0, clearRef := false }
    pfl := { Pfl.reset .powerOn with loader := .running, active := some ⟨0, sample⟩, owner := .free } }

/-- The same part with both links up and the flow control OPEN. -/
def up : State :=
  { base with egu := { Egu.reset with
    hostUp := true, hostRisen := true, grabberRunning := true, trained := true, flowOpen := true } }

/-- `base` with another profile active. -/
def under (p : Profile) (s : State) : State := { s with pfl := { s.pfl with active := some ⟨0, p⟩ } }

/-- An entry of the frame table that holds no line yet. -/
def entry (serial : BitVec 32) (slot : Nat) (ms : Pos) (fin : Option (Pos × EndKind)) : FrameEntry :=
  { serial := serial, slot := slot, ms := ms, startSynth := false, fin := fin, linkReset := false,
    done := .all false, counts := .all ⟨0, 0, 0, 0, 0⟩, header := ⟨.header, slot, serial, []⟩ }

theorem test_base_is_ready : base.ready = true ∧ up.ready = true := by decide +kernel

/-! ## Well-formed commands (R123, R163) -/

/-- A grabber memory write of `n` bytes with `m` bytes of data. -/
def write (a : Addr) (n m : Nat) : Request := ⟨.memWrite, a, n, List.replicate m 0⟩

theorem test_wellFormed_accepts :
    (Instr.grabberRequestAccept (write 0xF80 128 128)).wellFormed = true ∧
      (Instr.grabberRequestAccept ⟨.memRead, 0x1000, 4096, []⟩).wellFormed = true ∧
      (Instr.loadReadEnd sampleHeader sampleRecord).wellFormed = true := by decide +kernel

theorem test_wellFormed_refuses_no_bytes : (Instr.grabberRequestAccept (write 0 0 0)).wellFormed = false := by decide

theorem test_wellFormed_refuses_4097_bytes :
    (Instr.grabberRequestAccept ⟨.memRead, 0, 4097, []⟩).wellFormed = false := by decide

theorem test_wellFormed_refuses_missing_data : (Instr.grabberRequestAccept (write 0 8 7)).wellFormed = false := by decide

theorem test_wellFormed_refuses_page_crossing :
    (Instr.grabberRequestAccept (write 0xF81 128 128)).wellFormed = false := by decide +kernel

theorem test_wellFormed_refuses_read_with_data :
    (Instr.grabberRequestAccept ⟨.memRead, 0, 4, [0]⟩).wellFormed = false := by decide

theorem test_wellFormed_refuses_long_completion :
    (Instr.grabberRequestAccept ⟨.completion, 0, 1, [0, 0]⟩).wellFormed = false := by decide

theorem test_wellFormed_refuses_long_message :
    (Instr.grabberRequestAccept ⟨.message, 0, 1, [0, 0]⟩).wellFormed = false := by decide

theorem test_wellFormed_refuses_config :
    (Instr.grabberRequestAccept ⟨.config, 0, 4, []⟩).wellFormed = false := by decide

theorem test_wellFormed_refuses_short_header :
    (Instr.loadReadEnd (sampleHeader.drop 1) sampleRecord).wellFormed = false := by decide +kernel

theorem test_wellFormed_refuses_short_record :
    (Instr.loadReadEnd sampleHeader (sampleRecord.drop 1)).wellFormed = false := by decide +kernel

/-! ## Formats and decoding -/

/-- The record written out from Tables 11-3 and 11-4 decodes to the sample profile. -/
theorem test_record_decodes : decodeProfile sampleRecord = sample := by decide +kernel

/-- Every check of Table 10-2 passes on it. -/
theorem test_record_acceptable : judge ⟨sampleHeader, sampleRecord⟩ 2 = none := by decide +kernel

/-- A header of version 2 fails check 1, a count of 2 fails check 2 for profile 2, a changed word fails check 3. -/
theorem test_record_refused :
    judge ⟨2 :: sampleHeader.drop 1, sampleRecord⟩ 2 = some .version ∧
      judge ⟨[1, 0, 2] ++ sampleHeader.drop 3, sampleRecord⟩ 2 = some .range ∧
      judge ⟨sampleHeader, 4 :: sampleRecord.drop 1⟩ 2 = some .checksum := by decide +kernel

/-- The table gives no row bits, so a word spells no command (log 30). -/
theorem test_words_spell_nothing : decodeTableWord 8 0 = none ∧ decodeTableWord 32 7 = none := by decide

/-! ## Chapter 1 (Tables 1-3 and 1-6) -/

theorem test_signed_distances :
    sdist 1000 1250 = 250 ∧ sdist 1250 1000 = -250 ∧ sdist 1099511627774 2 = 4 ∧ sdist 0 1099511627772 = -4 ∧
      sdist 7 7 = 0 ∧ sdist 5 549755813893 = -549755813888 := by decide

/-- Rows 1 and 3 of Table 1-6: an advance to 2^40 − 1; a reverse from position 0. -/
theorem test_encoder_forward_and_reverse :
    let s (r : Bool × Bool) (w : Pos) : State :=
      { base with wpu := { base.wpu with encRef := some r, wpos := w, wmax := w } }
    (got (exec (.encoderTransition true false (.all true)) (s (false, false) 1099511627774))).map
        (fun t => (t.wpu.wpos, t.wpu.wmax, t.wpu.depth)) = some (1099511627775, 1099511627775, 0) ∧
      (got (exec (.encoderTransition true false (.all true)) (s (true, true) 0))).map
        (fun t => (t.wpu.wpos, t.wpu.wmax, t.wpu.depth)) = some (1099511627775, 0, 1) := by decide +kernel

/-- Rows 6 and 7 of Table 1-6: an encoder error, and the reverse transition that raises the depth to 4. -/
theorem test_encoder_error_and_deep_reversal :
    let s : State := { base with wpu := { base.wpu with
      encRef := some (false, true), wpos := 1099511627773, wmax := 0, depth := 3, deepest := 3 } }
    (got (exec (.encoderTransition true false (.all true)) s)).map
        (fun t => (t.wpu.encErrors, t.wpu.depth)) = some (1, 3) ∧
      (got (exec (.encoderTransition false false (.all true))
        { s with wpu := { s.wpu with encRef := some (true, false) } })).map
        (fun t => (t.wpu.depth, t.wpu.deepest, t.wpu.deepDelivered)) = some (4, 4, true) := by decide +kernel

/-! ## Chapter 2 (Tables 2-3 and 2-5) -/

theorem test_repeat_averages :
    let p := { sample with repeatAvg := 4, lExp := 120000 }
    repeatAverage p [120003] = 120003 ∧ repeatAverage p [119998, 120003] = 120001 ∧
      repeatAverage p [120001, 119998, 120003] = 120001 ∧
      repeatAverage p [120002, 120001, 119998, 120003] = 120001 ∧
      repeatAverage p [120006, 120002, 120001, 119998, 120003] = 120002 ∧ repeatAverage p [] = 120000 := by decide

/-- The start of section 2.11: LOCKED at a mark of 10,000 with lengths 1,002 and 998. -/
def locked (w : Pos) : State :=
  { base with
    wpu := { base.wpu with wpos := w, wmax := w }
    mkt := { Mkt.reset with
      lock := .locked, newest := some ⟨10000, false⟩, history := [1002, 998], lAvg := 1000 } }

/-- An edge at 10,500 is inhibited, and one at 10,990 starts a candidate. -/
theorem test_mark_edges :
    let s (w : Pos) := { locked w with pins := { base.pins with mark := true } }
    (got (exec (.encoderTransition true false (.all true)) (s 10499))).map (fun t => (t.mkt.inhibit, t.mkt.cand))
        = some (1, none) ∧
      (got (exec (.encoderTransition true false (.all true)) (s 10989))).map (fun t => t.mkt.cand)
        = some (some ⟨10990, 0, true, 4⟩) := by decide +kernel

/-- The window runs out at 11,021: a mark is synthesized at 11,000. -/
theorem test_window_runs_out :
    (got (exec .windowRunsOut (locked 11021))).map (fun t => (t.mkt.newest, t.mkt.lock, t.mkt.coasting))
      = some (some ⟨11000, true⟩, .coasting, 1) := by decide +kernel

/-- The second expiry in a row, at 14,049 past a synthesized mark of 13,028: lock is lost. -/
theorem test_window_runs_out_again :
    let s := { locked 14049 with mkt := { Mkt.reset with
      lock := .coasting, newest := some ⟨13028, true⟩, history := [1018, 1002, 998], lAvg := 1010, coasting := 1 } }
    (got (exec .windowRunsOut s)).map (fun t => (t.mkt.lock, t.mkt.newest, t.sau.flags.lockLost))
      = some (.search, none, true) := by decide +kernel

/-- The candidate of 12,018 qualifies at 12,022 after the mark synthesized at 11,000. -/
theorem test_candidate_qualifies :
    let s := { locked 12022 with mkt := { Mkt.reset with
      lock := .coasting, newest := some ⟨11000, true⟩, history := [1002, 998], lAvg := 1000, coasting := 1,
      deferred := true, cand := some ⟨12018, 4, true, 4⟩ } }
    (got (exec .candidateQualifies s)).map (fun t => (t.mkt.lock, t.mkt.newest, t.mkt.history, t.mkt.lAvg))
      = some (.locked, some ⟨12018, false⟩, [1018, 1002, 998], 1010) := by decide +kernel

/-- While the depth is above 0 the MARK reference follows the line at once (R16); HOLD sets the hold state (R101). -/
theorem test_mark_and_hold :
    (got (exec (.markChange true) { base with wpu := { base.wpu with wpos := 20001, depth := 1 } })).map
        (·.mkt.markRef) = some true ∧
      (got (exec (.markChange true) base)).map (·.mkt.markRef) = some false ∧
      (got (exec (.holdChange true) base)).map (·.frt.held) = some true := by decide +kernel

/-! ## Chapter 3 (section 3.9) -/

/-- Channel 2 at its fire of 20,002: countdown reached, RDY2 active, counter 57. -/
def atFire : State :=
  { base with
    pins := { base.pins with rdy := .all true }
    tgn := base.tgn.set .ch2 { countdown := some 0, pulse := none, seq := 57, ptq := [] } }

theorem test_fire_emits :
    (got (exec (.fire .ch2) atFire)).map (fun t => t.tgn.get .ch2)
      = some ⟨some 4, some ⟨500, 10⟩, 58, [⟨57, 20002, 15002⟩]⟩ := by decide +kernel

/-- RDY2 inactive: the fire is skipped, the countdown is reloaded and the counter stays. -/
theorem test_fire_not_ready :
    (got (exec (.fire .ch2) { atFire with pins := base.pins })).map (fun t => t.tgn.get .ch2)
      = some ⟨some 4, none, 57, []⟩ := by decide +kernel

/-- The pulse of 500 ends at 510. -/
def pulsing : State :=
  { base with
    wpu := { base.wpu with time := 510, wpos := 20018, wmax := 20018 }
    tgn := base.tgn.set .ch2
      { countdown := some 2, pulse := some ⟨500, 10⟩, seq := 59, ptq := [⟨58, 20006, 15006⟩] } }

theorem test_trigger_pulse_end :
    (got (exec (.triggerPulseEnd .ch2) pulsing)).map (fun t => (t.tgn.get .ch2).pulse) = some none ∧
      (got (exec (.triggerPulseEnd .ch2) { pulsing with wpu := { pulsing.wpu with time := 509 } })).map
        (fun t => (t.tgn.get .ch2).pulse) = some (some ⟨500, 10⟩) := by decide +kernel

/-- The record of 20,006 reaches the limit of 12 advances at 20,018, and not at 20,017. -/
theorem test_latency_expiry :
    (got (exec (.latencyExpiry .ch2) pulsing)).map (fun t => (t.tgn.get .ch2).ptq) = some [] ∧
      (got (exec (.latencyExpiry .ch2) { pulsing with wpu := { pulsing.wpu with wmax := 20017 } })).map
        (fun t => (t.tgn.get .ch2).ptq.length) = some 1 := by decide +kernel

/-! ## Chapter 4 (section 4.8) -/

/-- Channel 1 awaits the line of its record 100; its entry 77 began at 18,000. A steering write is in progress. -/
def binding (req : Request) : State :=
  { up with
    wpu := { up.wpu with wpos := 30020, wmax := 30020 }
    tgn := up.tgn.set .ch1
      { countdown := some 3, pulse := none, seq := 103,
        ptq := [⟨100, 30010, 24004⟩, ⟨101, 30012, 24008⟩, ⟨102, 30014, 24012⟩] }
    lnb := up.lnb.set .ch1 { Lnb.reset with state := .running, ringOfs := 5, kL := some 40 }
    frt := { up.frt with entries := [entry 77 1 18000 none], serial := 77 }
    egu := { up.egu with
      ingress := some ⟨req, true, req.addr.toNat, req.data⟩, flowOpen := false } }

/-- The ring index 105 mod 64 = 41 binds record 100 at row 1,501 (with ROWS above it): 101 and 102 stay. -/
theorem test_piece_binds :
    let s := under { sample with rows := 2000 } (binding (write 0x80129000 2048 2048))
    (got (exec .pieceAdmission s)).map
        (fun t => ((t.lnb.get .ch1).ctx.map fun n => (n.k0, n.count, n.disp), (t.tgn.get .ch1).ptq.map (·.seq)))
      = some (some (41, 2048, .placed 77 1 1501), [101, 102]) := by decide +kernel

/-- A piece of ring index 45 finds no record and is UNMATCHED. -/
theorem test_piece_unmatched :
    (got (exec .pieceAdmission (binding (write 0x8012D000 2048 2048)))).map
        (fun t => ((t.lnb.get .ch1).unmatched, (t.lnb.get .ch1).totals.unmatched, (t.tgn.get .ch1).ptq.length))
      = some (1, 1, 3) := by decide +kernel

/-- A FILLING context of channel 1 started at `start`. -/
def filling (start : Pos) (d : Disposition) : State :=
  let l : Lnb := { Lnb.reset with state := .running, ctx := some ⟨41, start, some ⟨100, 19990, 17990⟩, d, 2048, 2048⟩ }
  { base with lnb := base.lnb.set .ch1 l }

/-- A context stalls at twice the latency limit, 24 advances past its start (R62), and not before. -/
theorem test_stall :
    (got (exec (.stall .ch1) (filling 19978 (.placed 77 1 3)))).map
        (fun t => ((t.lnb.get .ch1).ctx, (t.lnb.get .ch1).kL, (t.lnb.get .ch1).totals.short)) = some (none, some 41, 1) ∧
      (got (exec (.stall .ch1) (filling 19979 (.placed 77 1 3)))).map (fun t => (t.lnb.get .ch1).ctx.isSome)
        = some true := by decide +kernel

/-- Channel 1 with an unmatched count of `n`. -/
def unmatchedCount (n : Nat) : State :=
  { base with
    lnb := base.lnb.set .ch1 { Lnb.reset with state := .running, ringOfs := 5, unmatched := n, kL := some 3 } }

/-- The channel is fenced at FENCE_COUNT, 2, and not below (R69). -/
theorem test_fence :
    (got (exec (.fence .ch1) (unmatchedCount 2))).map
        (fun t => ((t.lnb.get .ch1).state, (t.lnb.get .ch1).unmatched, (t.lnb.get .ch1).ringOfs,
          t.sau.flags.channelFenced)) = some (.fenced, 0, 5, true) ∧
      (got (exec (.fence .ch1) (unmatchedCount 1))).map (fun t => (t.lnb.get .ch1).state) = some .running := by
  decide +kernel

/-! ## Chapter 5 (Tables 5-3, 5-4 and 5-6) -/

theorem test_narrow :
    let q (n : Nat) := { sampleChannel .ch0 with format := .narrow, sIn := 2, shift := n }
    (q 4).convert [0x0A, 0x0B] = [0xB0] ∧ (q 4).convert [0x23, 0xF1] = [0xFF] ∧ (q 4).convert [0xFF, 0x0F] = [0xFF] ∧
      (q 4).convert [0x00, 0x10] = [0xFF] ∧ (q 8).convert [0x34, 0x12] = [0x12] ∧ (q 0).convert [0xC8, 0x00] = [0xC8] := by
  decide

/-- Pixels 9 to 11 of a run trimmed to 8..12: columns 101 upward unmirrored, 100 upward and reversed mirrored. -/
theorem test_columns :
    let q (m : Bool) := { sampleChannel .ch0 with mirror := m, trimLo := 8, trimHi := 12, colBase := 100 }
    let r : PixelRun := ⟨9, [[9], [10], [11]]⟩
    (q false).firstColumn r = 101 ∧ (q true).firstColumn r = 100 ∧
      (q true).ordered r = [[11], [10], [9]] := by decide

/-- 704 bytes at 2_737A_4F40H are cut into 192 and 512 (Table 5-6). -/
theorem test_page_cut :
    (cutPages 704 0x2737A4F40 (List.replicate 704 0)).map (fun w => (w.addr, w.data.length))
      = [(0x2737A4F40, 192), (0x2737A5000, 512)] := by decide +kernel

/-! ## Chapter 6 (Tables 6-6 and 6-7) -/

/-- Rows 1, 2 and 6 of Table 6-7: a mark opens entry 42 in slot 1; with both slots held the frame is skipped. -/
theorem test_marks_open_and_skip :
    let p := { sample with slots := 2 }
    let s (w : Pos) := under p { base with wpu := { base.wpu with wpos := w, wmax := w } }
    let one := { s 14004 with frt := { base.frt with serial := 41, slotPtr := 1, entries := [entry 41 0 10000 none] } }
    let two := { s 18004 with frt := { base.frt with
      serial := 42, slotPtr := 0, entries := [entry 41 0 10000 (some (14000, .real)), entry 42 1 14000 none] } }
    let shown (t : State) := t.frt.entries.map fun e => (e.serial, e.slot, e.fin)
    shown (deliverMark ⟨14000, false⟩ one) = [(41, 0, some (14000, .real)), (42, 1, none)] ∧
      (deliverMark ⟨14000, false⟩ one).frt.slotPtr = 0 ∧
      shown (deliverMark ⟨18000, false⟩ two) = [(41, 0, some (14000, .real)), (42, 1, some (18000, .real))] ∧
      (deliverMark ⟨18000, false⟩ two).frt.serial = 43 := by decide +kernel

/-- Rows of Table 6-6: SYNTH_END does not degrade, a skipped line, the link-reset flag and a short line do. -/
theorem test_status_bytes :
    let e := entry 1 0 0 none
    base.statusOf sample e .real = 0 ∧ base.statusOf sample e .synthesized = 16 ∧
      base.statusOf sample { e with counts := e.counts.set .ch1 ⟨0, 0, 0, 0, 1⟩ } .real = 1 ∧
      base.statusOf sample { e with linkReset := true } .real = 5 ∧
      { base with sau := { base.sau with cond := { base.sau.cond with speedLow := true } } }.statusOf sample
        { e with counts := e.counts.set .ch0 ⟨0, 2, 0, 0, 0⟩ } .real = 3 := by decide +kernel

/-! ## Chapter 7 (Table 7-4) -/

/-- A posted write of the part's own of `n` bytes. -/
def posted (n : Nat) : Write := ⟨0x300000000, List.replicate n 0⟩

/-- An egress queue of `n` messages of the grabber. -/
def queued (n : Nat) : List Egress := List.replicate n ⟨.grabber, .message, 0, 4, []⟩

/-- Event 1: accepting a write makes the ingress IN_PROGRESS and stops the flow control. Stopped, none is accepted. -/
theorem test_grabber_request :
    let s := { up with egu := { up.egu with egress := queued 61 } }
    (got (exec (.grabberRequestAccept (write 0x30020000 16 16)) s)).map
        (fun t => (t.egu.ingress.isSome, t.egu.flowOpen)) = some (true, false) ∧
      (got (exec (.grabberRequestAccept (write 0x30020000 16 16)) { up with egu := { up.egu with flowOpen := false } })).map
        (fun t => t.egu.ingress.isSome) = some false ∧
      got (exec (.grabberRequestAccept (write 0 0 0)) s) = none := by decide +kernel

/-- Event 5: with one free entry the single-write trailer is granted; with none it is not. -/
theorem test_frame_item :
    let s (n : Nat) := { up with
      egu := { up.egu with egress := queued n, flowOpen := false }
      frt := { up.frt with writeList := [⟨.trailer, 4, 210, [posted 128]⟩] } }
    (got (exec .frameItemAdmission (s 63))).map (fun t => (t.egu.egress.length, t.frt.writeList)) = some (64, []) ∧
      (got (exec .frameItemAdmission (s 64))).map (fun t => t.frt.writeList.length) = some 1 := by decide +kernel

/-- Events 6 and 4: the record takes one entry and the writer is idle; while a frame item waits it is not granted. -/
theorem test_report_record :
    let s := { up with
      egu := { up.egu with egress := queued 62 }, rpu := { up.rpu with writer := some ⟨[posted 32], none⟩ } }
    (got (exec .reportRecordAdmission s)).map (fun t => (t.egu.egress.length, t.rpu.writer)) = some (63, none) ∧
      (got (exec .reportRecordAdmission
        { s with frt := { s.frt with writeList := [⟨.trailer, 4, 210, [posted 128]⟩] } })).map
        (fun t => t.egu.egress.length) = some 62 := by decide +kernel

/-- Event 7: a part outside every aperture joins at its own address, and the ingress is IDLE; the write waits for two
free entries. -/
theorem test_pass_through :
    let r := write 0x30020800 16 16
    let s (n : Nat) := { up with
      egu := { up.egu with egress := queued n, ingress := some ⟨r, true, 0x30020800, r.data⟩, flowOpen := false } }
    (got (exec .passThroughAdmission (s 62))).map
        (fun t => (t.egu.egress.getLast?.map (·.addr), t.egu.ingress, t.egu.flowOpen))
      = some (some 0x30020800, none, false) ∧
      (got (exec .passThroughAdmission (s 63))).map (fun t => t.egu.egress.length) = some 63 := by decide +kernel

/-- Event 8: a head is sent, two entries are free, and the flow control opens. -/
theorem test_egress_send :
    let s := { up with egu := { up.egu with egress := queued 63, flowOpen := false } }
    (got (exec .egressSend s)).map (fun t => (t.egu.egress.length, t.egu.flowOpen)) = some (62, true) := by
  decide +kernel

/-- The downstream queue takes 32 requests and no more (R130). -/
theorem test_downstream_request :
    let s (n : Nat) := { up with egu := { up.egu with downstream := List.replicate n (write 0 4 4) } }
    (got (exec (.downstreamRequest ⟨.config, 0, 4, []⟩) (s 31))).map (fun t => t.egu.downstream.length) = some 32 ∧
      (got (exec (.downstreamRequest ⟨.config, 0, 4, []⟩) (s 32))).map (fun t => t.egu.downstream.length) = some 32 := by
  decide +kernel

theorem test_downstream_send :
    let s := { up with egu := { up.egu with downstream := [write 0 4 4, write 64 8 8] } }
    (got (exec .downstreamSend s)).map (fun t => t.egu.downstream) = some [write 64 8 8] := by decide +kernel

/-- The host link comes up, trains, is reset and returns (R133, R134, R136). -/
theorem test_host_link :
    (got (exec .hostLinkFirstUp base)).map (fun t => (t.egu.hostUp, t.egu.grabberRunning)) = some (true, true) ∧
      (got (exec .hostLinkReset up)).map (fun t => (t.egu.hostUp, (t.lnb.get .ch1).state, (t.lnb.get .ch1).ringOfs))
        = some (false, .resync, 5) := by decide +kernel

theorem test_host_link_return :
    (got (exec .hostLinkReturn { base with egu := { Egu.reset with hostRisen := true } })).map
      (fun t => (t.egu.hostUp, t.egu.grabberRunning, t.egu.flowOpen)) = some (true, true, false) := by decide +kernel

/-- The grabber link trains and the flow control opens; its loss discards the downstream queue (R128, R137). -/
theorem test_grabber_link :
    (got (exec .grabberLinkTrained { up with egu := { up.egu with trained := false, flowOpen := false } })).map
        (fun t => (t.egu.trained, t.egu.flowOpen)) = some (true, true) ∧
      (got (exec .grabberLinkLoss { up with egu := { up.egu with downstream := [write 0 4 4] } })).map
        (fun t => (t.egu.trained, t.egu.flowOpen, t.egu.downstream)) = some (false, false, []) := by decide +kernel

/-! ## Chapter 8 (Table 8-5) -/

/-- A queued report of a kind, by its event and priority. -/
def report (ev : ReportEvent) (pr : Nat) : Report := ⟨ev, pr, 0, 0⟩

/-- The queue of section 8.8: two FRAME_SKIPPED of priority 2 and thirteen LINE_FAULT of priority 1. -/
def outageQueue : List Report :=
  [report (.frameSkipped 301 false 3 0) 2, report (.frameSkipped 302 false 3 0) 2] ++
    (List.range 13).map fun i => report (.lineFault .ch0 .short (i + 1)) 1

/-- Events 2 and 3: FRAME_DONE 299 displaces L13, and the ALERT it raises displaces L12. -/
theorem test_full_queue :
    let lockReport := report (.lock .coasting .locked true none 0 0) 5
    let s := { base with rpu := { base.rpu with queue := lockReport :: outageQueue, seq := 500 } }
    let t := raiseReport (.frameDone 299 0 0) s
    t.rpu.queue.map (·.priority) = [5, 4, 3, 2, 2] ++ List.replicate 11 1 ∧ t.rpu.dropped = 2 ∧
      t.sau.flags.reportsDropped = true ∧
      (t.rpu.queue.getLast?.map (·.event)) = some (.lineFault .ch0 .short 11) := by decide +kernel

/-- Event 6: the LOCK record takes seq 500 and the dropped count 3, at 8_0000_0680H, and a message follows it. -/
theorem test_report_group :
    let p := { sample with reportBase := 0x800000000, reportEntries := 64 }
    let s := under p { up with rpu := { up.rpu with
      queue := [report (.lock .coasting .locked true none 0 0) 5], seq := 500, dropped := 3 } }
    (got (exec .reportGroupForm s)).map (fun t =>
        (t.rpu.seq, t.rpu.dropped, t.rpu.writer.map fun g => (g.records.map (·.addr), g.message)))
      = some (501, 0, some ([0x800000680], some ⟨0xFEE00000, [0x31, 0, 0, 0]⟩)) := by decide +kernel

/-- The record's bytes by Tables 11-7 and 11-8: seq 500, kind 3 with priority 5, dropped 3, the payload of LOCK. -/
theorem test_report_record_bytes :
    let s := { up with rpu := { up.rpu with seq := 500, dropped := 3 } }
    let r : Report := ⟨.lock .coasting .locked true none 0x12345 1000, 5, 7, 9⟩
    (formGroup sample r s).records.map (·.data) =
      [[0xF4, 1, 0, 0, 0x53, 0, 3, 0, 7, 0, 0, 0, 9, 0, 0, 0] ++
        [2, 1, 1, 0, 0x45, 0x23, 1, 0, 0, 0xE8, 3, 0, 0, 0, 0, 0]] := by decide +kernel

/-- Event 8: the message is admitted and the writer is IDLE. -/
theorem test_message :
    let s := { up with rpu := { up.rpu with writer := some ⟨[], some ⟨0xFEE00000, [0x31, 0, 0, 0]⟩⟩ } }
    (got (exec .messageInterrupt s)).map (fun t => (t.egu.egress.map (·.addr), t.rpu.writer))
      = some ([0xFEE00000], none) := by decide +kernel

/-- A STATUS event clears the folding flags and joins with PRI_STATUS (R148). -/
theorem test_status_event :
    let s := { base with rpu := { base.rpu with folded := [(.ch2, .unmatched)], statusDue := 1 } }
    (got (exec .statusEvent s)).map (fun t => (t.rpu.folded, t.rpu.queue.map (fun r => (r.event, r.priority))))
      = some ([], [(.status, 1)]) := by decide +kernel

/-! ## Chapter 9 (Tables 9-4 and 9-5) -/

/-- The part of section 9.7 after the samples 600, 650 and 700, with a fourth of 675. -/
def sampling : State :=
  under { sample with slowSpeed := true, alertLatch := true, alertMask := 0x41 }
    { base with
      wpu := { base.wpu with time := 1000 }
      sau := { base.sau with raw := 675, blockSum := 1950, blockCount := 3, speedAvg := 600 } }

/-- The fourth sample joins the block and is not compared; the interval starts anew. -/
theorem test_speed_interval :
    (got (exec .speedIntervalExpiry sampling)).map
        (fun t => (t.sau.raw, t.sau.blockSum, t.sau.blockCount, t.sau.cond.speedHigh, t.sau.speedT0))
      = some (0, 2625, 4, false, some 1000) := by decide +kernel

/-- Events 2 and 3: averages of 656 and, from an exact half, 641; SPEED_HIGH and ALERT. -/
theorem test_speed_block :
    let s (n : Nat) := { sampling with sau := { sampling.sau with blockSum := n, blockCount := 4 } }
    let shown (t : State) := (t.sau.speedAvg, t.sau.cond.speedHigh, t.sau.flags.speedHigh, t.sau.alert)
    (got (exec .speedBlockEnd (s 2625))).map shown = some (656, true, true, true) ∧
      (got (exec .speedBlockEnd (s 2562))).map (·.sau.speedAvg) = some 641 ∧
      (got (exec .speedBlockEnd (s 67108860))).map (·.sau.speedAvg) = some 16777215 := by decide +kernel

/-- Events 4 and 5: with 615 the latched flag stays SET; the CLEAR pulse clears it and ALERT. -/
theorem test_latched_flag :
    let s := { sampling with sau := { sampling.sau with
      blockSum := 2460, blockCount := 4, cond := { base.sau.cond with speedHigh := true },
      flags := { base.sau.flags with speedHigh := true }, alert := true } }
    (got (exec .speedBlockEnd s)).map (fun t => (t.sau.cond.speedHigh, t.sau.flags.speedHigh)) = some (false, true) ∧
      (got (exec (.clearPulse true) { s with sau := { s.sau with blockCount := 0 } })).map
        (fun t => (t.sau.flags.speedHigh, t.sau.alert)) = some (false, false) := by decide +kernel

/-- CLEAR found active with the reference ACTIVE is no pulse (R159). -/
theorem test_clear_held :
    let s := { base with sau := { base.sau with
      clearRef := true, flags := { base.sau.flags with encoder := true }, alert := true } }
    (got (exec (.clearPulse true) s)).map (·.sau.flags.encoder) = some true := by decide +kernel

/-- Two CLEAR pulses with an inactive sample between them are taken at two increments of TIME, and the sample between
is a third (R159). -/
theorem test_clear_pulses_are_apart :
    let next (l : Bool) (s : State) := (got (exec (.clearPulse l) s)).getD s
    (next true (next false (next true base))).wpu.time = 503 ∧
      (next true (next false (next true base))).sau.clearRef = true := by decide +kernel

/-- With STATUS_PERIOD 0 the count stays at 0, and a count carried over an activation becomes 0 (R147). -/
theorem test_status_period_zero :
    let s := { base with rpu := { base.rpu with statusCount := 5 } }
    (countClosure { sample with statusPeriod := 0 } s).rpu = { base.rpu with statusCount := 0 } ∧
      (countClosure { sample with statusPeriod := 7 } s).rpu.statusCount = 6 := by decide +kernel

/-! ## Chapter 10 (Table 10-5) -/

/-- Profile 1 active, both PSEL lines as given. -/
def selecting (psel : BitVec 2) (time : Time) : State :=
  { base with
    pins := { base.pins with psel := psel }
    wpu := { base.wpu with time := time }
    sau := { base.sau with speedT0 := some time }
    pfl := { base.pfl with active := some ⟨1, sample⟩, pselStable := 1 } }

/-- Events 1 and 4: a change starts the debounce, whose expiry drains for profile 2. -/
theorem test_psel_change :
    (got (exec (.pselChange 2) (selecting 1 1000000))).map (fun t => (t.pfl.debounce, t.pfl.pselStable))
      = some (some 1000000, 1) := by decide +kernel

theorem test_psel_debounce :
    let s (time : Time) := { selecting 2 time with
      pfl := { (selecting 2 time).pfl with debounce := some 1003200 } }
    let shown (t : State) := (t.pfl.loader, t.pfl.pselStable, t.pfl.target, t.pfl.debounce)
    (got (exec .pselDebounceExpiry (s 1013200))).map shown = some (.draining, 2, some 2, none) ∧
      (got (exec .pselDebounceExpiry (s 1013199))).map shown = some (.running, 1, none, some 1003200) := by
  decide +kernel

/-- The loader in a state, with profile 2 the target. -/
def loader (l : LoaderState) (o : StoreOwner) : State :=
  { selecting 2 1052000 with pfl := { (selecting 2 1052000).pfl with
    loader := l, target := some 2, owner := o, pselStable := 2, sgnt := o == .programmer,
    transaction := if l = .loading then some headerRead else none } }

/-- Event 7: the table is empty and the only context is refused, so the drain ends; a live entry holds it. -/
theorem test_drain_end :
    let l : Lnb := { Lnb.reset with state := .running, ctx := some ⟨3, 20002, none, .refused .uncaptured, 64, 64⟩ }
    let s := { loader .draining .programmer with lnb := base.lnb.set .ch0 l }
    (got (exec .drainEnd s)).map (·.pfl.loader) = some .awaitingStore ∧
      (got (exec .drainEnd { s with frt := { s.frt with entries := [entry 87 0 18000 none] } })).map (·.pfl.loader)
        = some .draining := by decide +kernel

/-- Events 5 and 10: SREQ takes the FREE store and gives it back. -/
theorem test_sreq :
    let s := loader .draining .free
    let held := { s with frt := { s.frt with entries := [entry 87 0 18000 none] } }
    (got (exec .sreqAssert held)).map (fun t => (t.pfl.owner, t.pfl.sgnt)) = some (.programmer, true) ∧
      (got (exec .sreqRelease { loader .awaitingStore .programmer with pins := { base.pins with sreq := true } })).map
        (fun t => (t.pfl.owner, t.pfl.sgnt)) = some (.free, false) := by decide +kernel

/-- A store FREE with SREQ active is granted; AWAITING_STORE with a FREE store becomes LOADING. -/
theorem test_store_owners :
    (got (exec .storeGrant { loader .awaitingStore .free with pins := { base.pins with sreq := true } })).map
        (·.pfl.owner) = some .programmer ∧
      (got (exec .loadingStart (loader .awaitingStore .free))).map (fun t => (t.pfl.loader, t.pfl.owner))
        = some (.loading, .loader) := by decide +kernel

/-- Section 11.5: a load clocks 326 bytes, or 67 when the header fails check 1; profile 2's record is at 0240H. -/
theorem test_store_port :
    loadTransactions sampleHeader 2 = [⟨[3, 0, 0], 64⟩, ⟨[3, 2, 0x40], 256⟩] ∧
      loadBytesClocked sampleHeader 2 = 326 ∧ loadBytesClocked (2 :: sampleHeader.drop 1) 2 = 67 ∧
      (got (exec .loadingStart (loader .awaitingStore .free))).map (·.portDrive)
        = some (.transaction ⟨[3, 0, 0], 64⟩) ∧
      (got (exec .resetPin (loader .loading .loader))).map (·.portDrive) = some .idle ∧
      (loader .running .programmer).portDrive = .highImpedance := by decide +kernel

/-- Event 12: the checks pass and profile 2 is active, RUNNING, with the store FREE. -/
theorem test_load_accepted :
    (got (exec (.loadReadEnd sampleHeader sampleRecord) (loader .loading .loader))).map
        (fun t => ((t.pfl.loader, t.pfl.active.map (·.number), t.pfl.target, t.pfl.owner),
          (t.tgn.get .ch2).countdown, (t.lnb.get .ch2).state))
      = some ((.running, some 2, none, .free), some 3, .resync) := by decide +kernel

/-- A record with a changed word is refused CHECKSUM and profile 1 is kept (R174). -/
theorem test_load_refused :
    (got (exec (.loadReadEnd sampleHeader (4 :: sampleRecord.drop 1)) (loader .loading .loader))).map
        (fun t => (t.pfl.loader, t.pfl.active.map (·.number), t.pfl.refused, t.rpu.queue.map (·.event)))
      = some (.running, some 1, some 2, [.profile false 2 1 (some .checksum)]) := by decide +kernel

/-! ## Resets -/

/-- A reset-pin reset and its end (R14, R165). -/
theorem test_resets :
    (got (exec .resetPin base)).map (fun t => (t.inReset, t.wpu.wmax, t.pfl.startCause, t.pfl.active))
        = some (true, 0, .resetPin, none) ∧
      (got (exec .powerOn base)).map (fun t => (t.inReset, t.wpu.time, t.pfl.startCause, t.pfl.owner))
        = some (true, 0, .powerOn, .loader) := by decide +kernel

theorem test_reset_end :
    (got (exec .resetEnd { State.reset with pins := { State.reset.pins with psel := 2, encA := true } })).map
        (fun t => (t.inReset, t.wpu.encRef, t.pfl.pselStable, t.pfl.target))
      = some (false, some (true, false), 2, some 2) := by decide +kernel

/-! ## Witnesses: a state and operands that meet the hypotheses of each statement, clause by clause -/

/-- `base` with a backlash depth of `d`. -/
def back (d : Nat) : State := { base with wpu := { base.wpu with wpos := 20002 - BitVec.ofNat 40 d, depth := d } }

theorem witness_WellFormedCommandsProceed :
    (Instr.fire .ch3).wellFormed = true ∧ (Instr.grabberRequestAccept (write 0xF80 128 128)).wellFormed = true ∧
      (Instr.loadReadEnd sampleHeader sampleRecord).wellFormed = true := by decide +kernel

theorem witness_QuietStatesSettleAndIdle :
    base.quiet = true ∧ (State.reset.pending = [] ∧ State.reset.inReset = true) ∧
      (base.pending = [] ∧ base.ready = true ∧ base.pins.clear = false) := by decide +kernel

theorem witness_ResetsSetTheStatedValues :
    (Instr.powerOn = .powerOn ∨ Instr.powerOn = .resetPin) ∧ (Instr.resetPin = .powerOn ∨ Instr.resetPin = .resetPin) := by
  decide

theorem witness_ResetEndStartsTheStartUpLoad : State.reset.inReset = true ∧ base.inReset = false := by decide

theorem witness_ObservedPairBecomesTheReference :
    base.ready = true ∧ base.wpu.encRef = some (false, false) ∧
      { base with wpu := { base.wpu with encRef := none } }.ready = true := by decide +kernel

/-- `s` with the MARK line active. -/
def marked (s : State) : State := { s with pins := { s.pins with mark := true } }

/-- `locked` at `w` with a candidate, its window's expiry deferred or not, and a coasting count. -/
def candidate (w : Pos) (deferred : Bool) (coasting : Nat) : State :=
  { locked w with mkt := { (locked w).mkt with
    cand := some ⟨w - 1, 0, true, 4⟩, deferred := deferred, coasting := coasting, markRef := true } }

/-- A candidate with MARK active; rejected; rejected with a deferred expiry below MISS_MAX and at it; no candidate: an
edge in SEARCH, edges at 979, 980 and 1,020 past the newest mark, and no edge. All but the two with a deferred expiry
meet the clause of the evaluation alone. -/
theorem witness_AdvanceReachesTheBlocks :
    let edge (s : State) := s.mkt.cand = none ∧ (s.pins.mark != sample.markActiveLow) = true ∧ s.mkt.markRef = false
    (∀ s ∈ [base, marked (candidate 10990 false 0), candidate 10990 false 0, candidate 11022 true 0,
        candidate 11022 true 1, marked base, marked (locked 10978), marked (locked 10979), marked (locked 11019)],
      s.ready = true ∧ s.wpu.encRef = some (false, false) ∧
        classifyPair s.encInverted (false, false) (true, false) = .forward ∧ s.wpu.depth = 0 ∧
        s.profile = some sample) ∧
      ((marked (candidate 10990 false 0)).mkt.cand = some ⟨10989, 0, true, 4⟩ ∧
        ((marked (candidate 10990 false 0)).pins.mark != sample.markActiveLow) = true) ∧
      (∀ s ∈ [candidate 10990 false 0, candidate 11022 true 0, candidate 11022 true 1],
        s.mkt.cand.isSome ∧ (s.pins.mark != sample.markActiveLow) = false ∧ s.mkt.newest = some ⟨10000, false⟩) ∧
      ((candidate 10990 false 0).mkt.deferred = false ∧ (candidate 11022 true 0).mkt.deferred = true ∧
        (candidate 11022 true 0).mkt.coasting < sample.missMax ∧
        sample.missMax ≤ (candidate 11022 true 1).mkt.coasting) ∧
      (edge (marked base) ∧ (marked base).mkt.lock = .search) ∧
      (edge (marked (locked 10978)) ∧ edge (marked (locked 10979)) ∧ edge (marked (locked 11019)) ∧
        (locked 0).mkt.lock ≠ .search ∧ (locked 0).mkt.newest = some ⟨10000, false⟩ ∧
        sdist 10000 (10978 + 1) = (sample.lExp - sample.lTol : Nat) - 1 ∧
        sdist 10000 (10979 + 1) = (sample.lExp - sample.lTol : Nat) ∧
        sdist 10000 (11019 + 1) = (sample.lExp + sample.lTol : Nat)) ∧
      (base.mkt.cand = none ∧ (base.pins.mark != sample.markActiveLow) = false) := by decide +kernel

theorem witness_ReturnMovesWposAlone :
    (back 1).ready = true ∧ (back 1).wpu.encRef = some (false, false) ∧
      classifyPair (back 1).encInverted (false, false) (true, false) = .forward ∧ 0 < (back 1).wpu.depth ∧
      (sdist (back 1).wpu.wpos (back 1).wpu.wmax = ((back 1).wpu.depth : Int) ∧
        (back 1).wpu.depth ≤ Config.maxDepth) ∧ (back 1).wpu.depth = 1 := by decide +kernel

/-- At the maximum depth; and at depth 2, which the transition raises to REVERSE_LIMIT and not above it. -/
theorem witness_ReverseTransitionMovesWposBack :
    ((back (2 ^ 39 - 1)).ready = true ∧ (back (2 ^ 39 - 1)).wpu.encRef = some (false, false) ∧
        classifyPair (back (2 ^ 39 - 1)).encInverted (false, false) (false, true) = .reverse ∧
        (back (2 ^ 39 - 1)).wpu.depth = 2 ^ 39 - 1) ∧
      (back 2).ready = true ∧ (back 2).wpu.encRef = some (false, false) ∧
      classifyPair (back 2).encInverted (false, false) (false, true) = .reverse ∧ (back 2).wpu.depth ≠ 2 ^ 39 - 1 ∧
      (back 2).profile = some sample ∧ (back 2).wpu.depth + 1 ≤ sample.reverseLimit := by decide +kernel

/-- `locked` at 10,002 with a backlash depth of 3. -/
def lockedBack : State := { locked 10002 with wpu := { (locked 10002).wpu with wpos := 9999, depth := 3 } }

/-- `s` with a frame table of one entry, ended as given. -/
def tabled (fin : Option (Pos × EndKind)) (s : State) : State :=
  { s with frt := { s.frt with entries := [entry 41 0 10000 fin], serial := 41 } }

/-- In SEARCH; locked with an empty table, with the newest entry OPEN, and with it BOUNDED. -/
theorem witness_DeepReversalLosesLock :
    (∀ s ∈ [back 3, lockedBack, tabled none lockedBack, tabled (some (14000, .real)) lockedBack],
      s.ready = true ∧ s.wpu.encRef = some (false, false) ∧
      classifyPair s.encInverted (false, false) (false, true) = .reverse ∧ s.profile = some sample ∧
      s.wpu.depth < 2 ^ 39 - 1 ∧ s.wpu.deepDelivered = false ∧ sample.reverseLimit < s.wpu.depth + 1 ∧
      (s.mkt.lock = .search ↔ s = back 3)) ∧
      lockedBack.mkt.newest = some ⟨10000, false⟩ ∧ lockedBack.frt.entries = [] ∧
      ((tabled none lockedBack).frt.entries = [] ++ [entry 41 0 10000 none] ∧ (entry 41 0 10000 none).fin = none) ∧
      (entry 41 0 10000 (some (14000, .real))).fin.isSome := by decide +kernel

theorem witness_EncoderErrorIsCounted :
    base.ready = true ∧ base.wpu.encRef = some (false, false) ∧
      classifyPair base.encInverted (false, false) (true, true) = .error := by decide +kernel

theorem witness_MarkAndHoldChanges :
    (base.ready = true ∧ true ≠ base.pins.mark ∧ base.wpu.depth = 0) ∧
      ((back 1).ready = true ∧ true ≠ (back 1).pins.mark ∧ 0 < (back 1).wpu.depth ∧
        (back 1).profile = some sample) := by decide +kernel

/-- A candidate held; SEARCH; and edges 979, 980 and 1,020 past the newest mark. -/
theorem witness_MarkEdgeStartsOrIsInhibited :
    { base.mkt with cand := some ⟨20002, 0, false, 4⟩ }.cand.isSome ∧ (base.mkt.cand = none ∧ base.mkt.lock = .search) ∧
      ((locked 0).mkt.cand = none ∧ (locked 0).mkt.lock ≠ .search ∧ (locked 0).mkt.newest = some ⟨10000, false⟩) ∧
      sdist 10000 10979 < (sample.lExp - sample.lTol : Nat) ∧
      ((sample.lExp - sample.lTol : Nat) ≤ sdist 10000 10980 ∧ sdist 10000 10980 ≤ (sample.lExp + sample.lTol : Nat)) ∧
      ((sample.lExp - sample.lTol : Nat) ≤ sdist 10000 11020 ∧
        sdist 10000 11020 ≤ (sample.lExp + sample.lTol : Nat)) := by decide +kernel

/-- A candidate at its MARK_MIN of 4, found in SEARCH and in the window, without and with a waiting edge; and one so old
that the window of its mark is past. -/
theorem witness_QualifiedCandidateIsAccepted :
    let at4 (s : State) (k : Candidate) (e : Bool) := { s with mkt := { s.mkt with cand := some k, edgePending := e } }
    ∀ e ∈ [false, true],
      (let free := at4 base ⟨19998, 4, false, 4⟩ e
       free.inReset = false ∧ free.profile = some sample ∧ free.mkt.cand = some ⟨19998, 4, false, 4⟩ ∧ 4 ≤ 4 ∧
         ¬((sample.lExp + sample.lTol : Nat) : Int) + 1 ≤ sdist 19998 free.wpu.wmax) ∧
      (let windowed := at4 (locked 11004) ⟨11000, 4, true, 4⟩ e
       windowed.inReset = false ∧ windowed.profile = some sample ∧
         windowed.mkt.cand = some ⟨11000, 4, true, 4⟩ ∧ windowed.mkt.newest = some ⟨10000, false⟩) ∧
      (at4 base ⟨18981, 1021, false, 4⟩ e).mkt.edgePending = e ∧
      ((sample.lExp + sample.lTol : Nat) : Int) + 1 ≤ sdist 18981 base.wpu.wmax := by decide +kernel

/-- 1,021 past the newest mark, without and with a waiting edge: with an in-window candidate, with a coasting count
below MISS_MAX, at it, and at it with an OPEN and with a BOUNDED newest entry. -/
theorem witness_WindowRunsOut :
    let held := { locked 11021 with mkt := { (locked 11021).mkt with cand := some ⟨11019, 2, true, 4⟩ } }
    let coasting := { locked 11021 with mkt := { (locked 11021).mkt with lock := .coasting, coasting := 1 } }
    (∀ x ∈ [locked 11021, held, coasting, tabled none coasting, tabled (some (11000, .real)) coasting],
      ∀ e ∈ [false, true],
        let s := { x with mkt := { x.mkt with edgePending := e } }
        s.inReset = false ∧ s.profile = some sample ∧ s.mkt.newest = some ⟨10000, false⟩ ∧ s.mkt.lock ≠ .search ∧
          s.mkt.deferred = false ∧ s.qualifiesDue = false ∧
          ((sample.lExp + sample.lTol : Nat) : Int) + 1 ≤ sdist 10000 s.wpu.wmax) ∧
      held.mkt.cand = some ⟨11019, 2, true, 4⟩ ∧
      ((locked 11021).mkt.cand = none ∧ (locked 11021).mkt.coasting < sample.missMax ∧
        ¬((sample.lExp + sample.lTol : Nat) : Int) + 1 ≤ sdist (10000 + 1000) 11021) ∧
      (coasting.mkt.cand = none ∧ sample.missMax ≤ coasting.mkt.coasting) ∧
      ((tabled none coasting).frt.entries = [] ++ [entry 41 0 10000 none] ∧ (entry 41 0 10000 none).fin = none) ∧
      (entry 41 0 10000 (some (11000, .real))).fin.isSome := by decide +kernel

theorem witness_RepeatAverageIsTheRoundedMean :
    [980, 1020] ≠ [] ∧ 1 ≤ sample.repeatAvg ∧ sample.lTol ≤ sample.lExp ∧
      ∀ d ∈ [980, 1020], sample.lExp - sample.lTol ≤ d ∧ d ≤ sample.lExp + sample.lTol := by decide

/-- A fire with no condition of Table 3-3, and one for each condition. -/
theorem witness_FireIsJudged :
    let fenced := { atFire with lnb := atFire.lnb.set .ch2 { Lnb.reset with state := .fenced } }
    let loading := { atFire with pfl := { atFire.pfl with loader := .loading } }
    let busy := { atFire with tgn := atFire.tgn.set .ch2 { atFire.tgn.get .ch2 with pulse := some ⟨495, 10⟩ } }
    let notReady := { atFire with pins := base.pins }
    let g : Tgn := { atFire.tgn.get .ch2 with ptq := List.replicate 32 ⟨1, 19998, 14998⟩ }
    let full := { atFire with tgn := atFire.tgn.set .ch2 g }
    (∀ s ∈ [atFire, fenced, loading, busy, notReady, full],
        s.inReset = false ∧ s.profile = some sample ∧ (sample.ch.get .ch2).enable = true ∧
          (s.tgn.get .ch2).countdown = some 0 ∧ s.latencyDue .ch2 = false) ∧
      ((atFire.lnb.get .ch2).state ≠ .fenced ∧ atFire.pfl.loader ≠ .loading ∧ (atFire.tgn.get .ch2).pulse = none ∧
        atFire.pins.rdy.get .ch2 = true ∧ (atFire.tgn.get .ch2).ptq.length < 32) ∧
      (fenced.lnb.get .ch2).state = .fenced ∧ loading.pfl.loader = .loading ∧ (busy.tgn.get .ch2).pulse ≠ none ∧
      notReady.pins.rdy.get .ch2 = false ∧ 32 ≤ (full.tgn.get .ch2).ptq.length := by decide +kernel

/-- The web points 13,999 and 14,000 about the mark at 14,000, and 9,999 before every entry. -/
theorem witness_NoticeCountsInTheContainingEntry :
    let es := [entry 41 0 10000 (some (14000, .real)), entry 42 1 14000 none]
    (∀ e ∈ es, e.contains 9999 = false) ∧
      (es = [] ++ entry 41 0 10000 (some (14000, .real)) :: [entry 42 1 14000 none] ∧
        (entry 41 0 10000 (some (14000, .real))).contains 13999 = true) ∧
      es = [entry 41 0 10000 (some (14000, .real))] ++ entry 42 1 14000 none :: [] ∧
      (∀ e ∈ [entry 41 0 10000 (some (14000, .real))], e.contains 14000 = false) ∧
      (entry 42 1 14000 none).contains 14000 = true := by decide +kernel

theorem witness_PulseEndAndLatencyExpiry :
    (pulsing.inReset = false ∧ (pulsing.tgn.get .ch2).pulse = some ⟨500, 10⟩ ∧ elapsed pulsing.wpu.time 500 = 10 ∧
        elapsed 509 500 ≠ 10) ∧
      pulsing.profile = some sample ∧ (sample.ch.get .ch2).enable = true ∧
      (pulsing.tgn.get .ch2).ptq = [⟨58, 20006, 15006⟩] ∧
      ((sample.latCmp * 2 ^ sample.latScale : Nat) : Int) ≤ sdist 20006 pulsing.wpu.wmax := by decide +kernel

/-- A REFUSED and a PLACED context, each exactly 24 advances old; a PLACED one without a record. -/
theorem witness_StallEndsTheContext :
    (let n : Line := ⟨41, 19978, none, .placed 77 1 3, 0, 0⟩
     let s := { base with lnb := base.lnb.set .ch1 { Lnb.reset with state := .running, ctx := some n } }
     s.inReset = false ∧ s.profile = some sample ∧ (s.lnb.get .ch1).ctx = some n ∧ n.record = none ∧
       2 * ((sample.latCmp * 2 ^ sample.latScale : Nat) : Int) ≤ sdist 19978 s.wpu.wmax) ∧
    ∀ d ∈ [Disposition.refused .loading, .placed 77 1 3],
      (filling 19978 d).inReset = false ∧ (filling 19978 d).profile = some sample ∧
        ((filling 19978 d).lnb.get .ch1).ctx = some ⟨41, 19978, some ⟨100, 19990, 17990⟩, d, 2048, 2048⟩ ∧
        2 * ((sample.latCmp * 2 ^ sample.latScale : Nat) : Int) ≤ sdist 19978 (filling 19978 d).wpu.wmax := by
  decide +kernel

/-- FENCE_COUNT reached with no other channel FENCED, and with channel 2 FENCED. -/
theorem witness_FenceClosesTheChannel :
    let s := unmatchedCount 2
    let other := { s with lnb := s.lnb.set .ch2 { Lnb.reset with state := .fenced } }
    (∀ x ∈ [s, other], x.inReset = false ∧ x.profile = some sample ∧ (x.lnb.get .ch1).state = .running ∧
        sample.fenceCount ≤ (x.lnb.get .ch1).unmatched) ∧
      (∀ d ∈ Ch.all, d ≠ .ch1 → (s.lnb.get d).state ≠ .fenced) ∧
      (Ch.ch2 ≠ .ch1 ∧ (other.lnb.get .ch2).state = .fenced) := by decide +kernel

theorem witness_PieceAdmissionQueuesItsOutput :
    let r := write 0x80129000 16 16
    let s := binding r
    s.ready = true ∧ s.profile = some sample ∧ s.ingressGrant = some ⟨r, true, 0x80129000, r.data⟩ ∧
      s.nextPart ⟨r, true, 0x80129000, r.data⟩ = .piece .ch1 0x29000 16 := by decide +kernel

/-- With reference 40 of 64: no reference; d = 0 with and without a context; d = 1, 31, 32 and 63. A piece in padding,
and a piece of the last line's index. A continuation at the fill mark; a new line that supersedes a PLACED one; a
context that is REFUSED. -/
theorem witness_PiecesAreRelatedAndStragglersAbsorbed :
    let empty := (binding (write 0 8 8)).lnb.get .ch1
    let full := (filling 19978 (.placed 77 1 3)).lnb.get .ch1
    let q := sample.ch.get .ch1
    (Lnb.reset.ctx = none ∧ Lnb.reset.kL = none) ∧ (empty.ctx = none ∧ empty.kL = some 40) ∧
      (∀ n, full.ctx = some n → 41 = n.k0) ∧
      ((40 + 0) % 64 = 40 % 64 ∧ (40 + 1) % 64 = 41 % 64 ∧ (40 + 31) % 64 = 7 % 64 ∧ (40 + 32) % 64 = 8 % 64 ∧
        (40 + 63) % 64 = 39 % 64) ∧
      ([0, 0] : List Byte).take (q.lineBytes - 4000 % q.srcPitch) = [] ∧
      (([0, 0] : List Byte).take (q.lineBytes - (40 * 4096 + 3999) % q.srcPitch) ≠ [] ∧
        empty.relation q.srcLines ((40 * 4096 + 3999) / q.srcPitch) = .straggler) ∧
      (full.ctx = some ⟨41, 19978, some ⟨100, 19990, 17990⟩, .placed 77 1 3, 2048, 2048⟩ ∧
        ([0, 0] : List Byte).take (q.lineBytes - (41 * 4096 + 2048) % q.srcPitch) ≠ [] ∧
        full.relation q.srcLines ((41 * 4096 + 2048) / q.srcPitch) = .continuation) ∧
      (let s := filling 19978 (.placed 77 1 3)
       full.relation q.srcLines (42 * 4096 / q.srcPitch) = .newLine ∧
         ((newLine sample .ch1 (42 * 4096 / q.srcPitch) (endShort .ch1 s)).lnb.get .ch1).ctx =
           some ⟨42, 20002, none, .refused .unmatched, 0, 0⟩) ∧
      ((filling 19978 (.refused .fenced)).lnb.get .ch1).ctx =
        some ⟨41, 19978, some ⟨100, 19990, 17990⟩, .refused .fenced, 2048, 2048⟩ := by
  refine ⟨by decide +kernel, by decide +kernel, ?_, by decide +kernel, by decide +kernel, by decide +kernel,
    by decide +kernel, by decide +kernel, by decide +kernel⟩
  intro n h
  have : n = ⟨41, 19978, some ⟨100, 19990, 17990⟩, .placed 77 1 3, 2048, 2048⟩ := by
    simpa [filling, base, Quad.get, Quad.set] using h.symm
  rw [this]

/-- Record 101 is the first of index 42, behind record 100; no record has index 45. In LOADING; FENCED; in RESYNC with an
empty queue and with a record. -/
theorem witness_NewLineInRunningBindsItsRecord :
    let s := binding (write 0 8 8)
    let lines := (sample.ch.get .ch1).srcLines
    let ofs := (s.lnb.get .ch1).ringOfs
    ((s.tgn.get .ch1).ptq = [⟨100, 30010, 24004⟩] ++ ⟨101, 30012, 24008⟩ :: [⟨102, 30014, 24012⟩] ∧
        (100 + ofs) % lines ≠ 42 ∧ (101 + ofs) % lines = 42) ∧
      (∀ x ∈ (s.tgn.get .ch1).ptq, (x.seq.toNat + ofs) % lines ≠ 45) ∧
      (loader .loading .loader).pfl.loader = .loading ∧
      (let t := { base with lnb := base.lnb.set .ch1 { Lnb.reset with state := .fenced } }
       t.pfl.loader ≠ .loading ∧ (t.lnb.get .ch1).state = .fenced) ∧
      (base.pfl.loader ≠ .loading ∧ (base.lnb.get .ch0).state = .resync ∧ (base.tgn.get .ch0).ptq = []) ∧
      (let t := { s with lnb := s.lnb.set .ch1 { Lnb.reset with state := .resync } }
       t.pfl.loader ≠ .loading ∧ (t.lnb.get .ch1).state = .resync ∧
         (t.tgn.get .ch1).ptq = ⟨100, 30010, 24004⟩ :: [⟨101, 30012, 24008⟩, ⟨102, 30014, 24012⟩] ∧ 0 < lines) ∧
      (s.pfl.loader ≠ .loading ∧ (s.lnb.get .ch1).state = .running) := by decide +kernel

/-- The last web point of a BOUNDED entry, and one that no entry contains. -/
theorem witness_FrameRequestChoosesFrameAndRow :
    let s := { base with frt := { base.frt with entries := [entry 41 0 10000 (some (14000, .real))] } }
    (∀ e ∈ s.frt.entries, e.contains 14000 = false) ∧
      s.frt.entries = [] ++ entry 41 0 10000 (some (14000, .real)) :: [] ∧
      (entry 41 0 10000 (some (14000, .real))).contains 13999 = true := by decide +kernel

theorem witness_PixelConversion :
    { sampleChannel .ch0 with format := .narrow, sIn := 2, shift := 8 }.format = .narrow ∧
      { sampleChannel .ch0 with format := .narrow, shift := 8 }.shift = 8 ∧
      ({ sampleChannel .ch0 with format := .narrow }.shift = 0 ∧
        255 < (0 : Byte).toNat + 256 * (1 : Byte).toNat) ∧
      (sampleChannel .ch0).format = .pass ∧
      { sampleChannel .ch0 with format := .byteExchange, sIn := 2 }.format = .byteExchange := by decide

/-- A sub-piece of one-byte pixels that ends with the line, one of two-byte pixels that starts at an odd byte; the top
byte of the address space, and a full page. -/
theorem witness_OutputIsCutAtPageBoundaries :
    ((sampleChannel .ch0).sIn = 1 ∧ 3998 + ([1, 2] : List Byte).length ≤ (sampleChannel .ch0).lineBytes) ∧
      (let q := { sampleChannel .ch0 with sIn := 2, mirror := true }
       q.sIn = 2 ∧ 3 + ([1, 2, 3, 4] : List Byte).length ≤ q.lineBytes ∧
         (placeSubPiece sample q 0 0 3 [1, 2, 3, 4]).1.map (·.data) = [[2, 3]] ∧
         (placeSubPiece sample q 0 0 3 [1, 2, 3, 4]).2 = 2) ∧
      (([0] : List Byte) ≠ [] ∧ 2 ^ 64 - 1 + ([0] : List Byte).length ≤ 2 ^ 64) ∧
      (List.replicate 4096 (0 : Byte)).length ≤ 4096 := by decide +kernel

/-- An OPEN newest entry; one bounded by a lock loss one tick past the mark; one at it; a real bound. Slot 3 is the
first free one from the pointer upward, also with AUTO_RESYNC = ON and channel 1 FENCED. HOLD, the drain and a full
table skip. Under the active profile a mark finds the newest entry OPEN, and BOUNDED. -/
theorem witness_MarkBoundsAndOpensOrSkips :
    let loss (me : Pos) := entry 41 0 10000 (some (me, .lockLossWindow))
    let s := { base with frt := { base.frt with
      entries := [loss 14001, entry 42 2 14001 none], slotPtr := 2 } }
    (s.frt.entries = [loss 14001] ++ [entry 42 2 14001 none] ∧ (entry 42 2 14001 none).fin = none) ∧
      ([loss 14001] = [] ++ [loss 14001] ∧ (loss 14001).fin = some (14001, .lockLossWindow) ∧
        1 ≤ sdist 14000 14001) ∧
      ((loss 14000).fin = some (14000, .lockLossWindow) ∧ sdist 14000 14000 ≤ 0) ∧
      ((entry 41 0 10000 (some (14000, .real))).fin = some (14000, .real)) ∧
      (s.frt.held = false ∧ s.draining = false ∧ sample.autoResync = false ∧ s.findSlot sample = some 3) ∧
      (let p := { sample with autoResync := true }
       let t := { s with lnb := s.lnb.set .ch1 { Lnb.reset with state := .fenced } }
       t.frt.held = false ∧ t.draining = false ∧ p.autoResync = true ∧ t.findSlot p = some 3 ∧
         t.anyFenced = true) ∧
      (s.profile = some sample ∧ (tabled (some (14000, .real)) base).frt.entries = [] ++
        [entry 41 0 10000 (some (14000, .real))] ∧ (entry 41 0 10000 (some (14000, .real))).fin.isSome) ∧
      { base.frt with held := true }.held = true ∧ (loader .draining .free).draining = true ∧
      { s with frt := { s.frt with entries := [entry 41 0 0 none] } }.findSlot { sample with slots := 1 } = none ∧
      (1 < sample.slots ∧ s.slotFree ((s.frt.slotPtr + 1) % sample.slots) = true) := by decide +kernel

theorem witness_ClosureQueuesTheTrailer :
    (entry 41 0 10000 (some (14000, .real))).fin = some (14000, .real) := by decide

/-- An entry whose bound the horizon of channel 0 has reached, and not that of channel 1, done for the others. -/
theorem witness_CompletionRuleClosesEntries :
    let e := { entry 41 0 10000 (some (19902, .real)) with done := ⟨false, true, true, false⟩ }
    let s := { base with frt := { base.frt with entries := [e] } }
    s.profile = some sample ∧ s.doneFor sample e .ch0 = true ∧ s.doneFor sample e .ch1 = false ∧
      (evaluate [.ch0] (fun _ => true) s).frt.entries = [] := by decide +kernel

theorem witness_GrabberRequestIsAccepted :
    (up.ready = true ∧ (write 0x80000000 16 16).fromGrabber = true ∧ up.egu.ingress = none ∧ up.egu.flowOpen = true) ∧
      (base.ready = true ∧ base.egu.flowOpen = false) ∧
      ((binding (write 0 8 8)).ready = true ∧ (binding (write 0 8 8)).egu.ingress.isSome) ∧
      (write 0 0 0).fromGrabber = false := by decide +kernel

/-- A request that does not steer, and a part of a steering write outside every aperture. -/
theorem witness_PassThroughIsAdmittedUnchanged :
    let r := write 0x30020800 16 16
    ∀ b ∈ [false, true],
      let g : Ingress := ⟨r, b, 0x30020800, r.data⟩
      let s := { up with egu := { up.egu with ingress := some g, flowOpen := false } }
      s.ready = true ∧ s.ingressGrant = some g ∧ s.nextPart g = .pass 16 := by decide +kernel

/-- A two-write trailer with exactly two entries free; an empty list and a pending report write. -/
theorem witness_FrameItemsComeFirst :
    let i : FrameItem := ⟨.trailer, 4, 210, [posted 64, posted 64]⟩
    let s := { up with
      egu := { up.egu with egress := queued 62 }, frt := { up.frt with writeList := [i] } }
    s.ready = true ∧ s.frt.writeList = i :: [] ∧ s.egu.hostUp = true ∧
      i.writes.length + s.egu.egress.length ≤ 64 ∧
      (let u := { up with rpu := { up.rpu with writer := some ⟨[posted 32], none⟩ } }
       u.ready = true ∧ u.frt.writeList = [] ∧ u.rpu.writer = some ⟨[posted 32], none⟩) := by decide +kernel

theorem witness_QueuesAreFirstInFirstOut :
    let s := { up with egu := { up.egu with egress := queued 1, downstream := List.replicate 31 (write 0 4 4) } }
    s.ready = true ∧ (s.egu.hostUp = true ∧ s.egu.egress = ⟨.grabber, .message, 0, 4, []⟩ :: []) ∧
      s.egu.downstream.length < 32 ∧
      (s.egu.grabberRunning = true ∧ s.egu.trained = true ∧
        s.egu.downstream = write 0 4 4 :: List.replicate 30 (write 0 4 4)) := by decide +kernel

theorem witness_LinkEvents :
    (base.ready = true ∧ base.egu.hostRisen = false ∧ base.egu.hostUp = false) ∧
      (let down := { base with egu := { Egu.reset with hostRisen := true } }
       down.ready = true ∧ down.egu.hostRisen = true ∧ down.egu.hostUp = false) ∧
      (up.ready = true ∧ up.egu.grabberRunning = true) ∧ (up.egu.hostUp = true ∧ up.egu.trained = true) := by
  decide +kernel

/-- Channel 0 in RESYNC, channel 2 FENCED, channel 3 disabled; an OPEN and a BOUNDED entry, a record and a message of the
report writer in the egress queue, and a pending message. -/
theorem witness_HostLinkReset :
    let lost : List Egress := [⟨.report, .memWrite, 0x100000000, 32, []⟩, ⟨.report, .memWrite, 0xFEE00000, 4, []⟩]
    let s := { up with
      lnb := up.lnb.set .ch2 { Lnb.reset with state := .fenced }
      frt := { up.frt with entries := [entry 41 0 10000 (some (19902, .real)), entry 42 1 19902 none] }
      egu := { up.egu with egress := lost }
      rpu := { up.rpu with writer := some ⟨[], some (posted 4)⟩ } }
    s.ready = true ∧ s.egu.hostUp = true ∧ (s.enabled .ch0 = true ∧ (s.lnb.get .ch0).state ≠ .fenced) ∧
      (s.lnb.get .ch2).state = .fenced ∧ s.enabled .ch3 = false ∧
      (s.rpu.dropped ≤ 65535 ∧ s.rpu.queue.length < 16 ∧
        ∀ c ∈ Ch.all, (s.lnb.get c).ctx = none ∧ (s.tgn.get c).ptq = []) ∧
      0 < (lost.filter fun e => e.origin == .report && e.len == 32).length ∧
      (got (exec .hostLinkReset s)).map (fun t =>
          (t.frt.entries.map (·.linkReset), t.frt.writeList.map (·.serial), t.rpu.dropped, t.rpu.writer))
        = some ([true, true], [41, 42], 1, none) := by decide +kernel

/-- Room for one more; a full queue that a report of priority 2 joins, and one of priority 1 does not. No profile; an
event at the threshold and above it; a LINE_FAULT whose flag is SET, and CLEAR; an event that nothing drops. -/
theorem witness_ReportsJoinInOrderOfPriority :
    let hi := [report .status 2, report .status 2]
    let lo := List.replicate 13 (report .status 1)
    let s := { base with rpu := { base.rpu with queue := hi ++ lo } }
    let full := { base with rpu := { base.rpu with queue := (hi ++ lo) ++ [report .status 1] } }
    (s.rpu.queue.length < 16 ∧ s.rpu.queue = hi ++ lo ∧ (∀ x ∈ hi, 2 ≤ x.priority) ∧ (∀ x ∈ lo, x.priority < 2)) ∧
      (full.rpu.queue = (hi ++ lo) ++ [report .status 1] ∧ (hi ++ lo).length = 15) ∧
      ((report .status 1).priority < 2 ∧ 1 ≤ (report .status 1).priority) ∧
      State.reset.profile = none ∧ base.profile = some sample ∧
      (sample.pri.lineFault ≤ { sample with reportThreshold := 1 }.reportThreshold ∧
        sample.reportThreshold < sample.pri.lineFault) ∧
      ((Ch.ch1, FaultKind.short) ∈ { base.rpu with folded := [(.ch1, .short)] }.folded ∧
        (Ch.ch1, FaultKind.short) ∉ base.rpu.folded) ∧
      (admitReport .status base).2 = false := by decide +kernel

/-- The first LINE_FAULT of a channel and kind joins the queue and sets its flag; the second is folded (R140). -/
theorem test_line_fault_folds :
    let once := raiseReport (.lineFault .ch1 .short 7) base
    (once.rpu.queue.map (fun r => (r.priority, r.time, r.wmaxLow)), once.rpu.folded)
        = ([(1, 500, 20002)], [(.ch1, .short)]) ∧
      raiseReport (.lineFault .ch1 .short 8) once = once := by decide +kernel

/-- A STATUS report and a LOCK report at the head. -/
theorem witness_ReportGroupIsFormed :
    ∀ r ∈ [report .status 1, report (.lock .coasting .locked true none 0 0) 5],
      let s := { up with rpu := { up.rpu with queue := [r] } }
      s.inReset = false ∧ s.profile = some sample ∧ s.rpu.writer = none ∧ s.rpu.queue = r :: [] ∧
        s.egu.hostUp = true := by decide +kernel

/-- One free entry; a group with its record to come, and one with its message to come. -/
theorem witness_RecordsAndMessageAreAdmitted :
    ∀ g ∈ [(⟨[posted 32], some (posted 4)⟩ : WriteGroup), ⟨[], some (posted 4)⟩],
      let s := { up with rpu := { up.rpu with writer := some g }, egu := { up.egu with egress := queued 63, flowOpen := false } }
      s.ready = true ∧ s.rpu.writer = some g ∧ s.egu.hostUp = true ∧ s.frt.writeList = [] ∧
        s.egu.egress.length < 64 ∧ (g.records = [posted 32] ∨ g.records = [] ∧ g.message = some (posted 4)) := by
  decide +kernel

/-- PRI_STATUS = 1 at the threshold, and above it with room. -/
theorem witness_StatusEventClearsTheFolding :
    let s := { base with rpu := { base.rpu with statusDue := 1, queue := List.replicate 15 (report .status 1) } }
    let at1 := { sample with reportThreshold := 1 }
    (s.inReset = false ∧ s.profile = some sample ∧ s.rpu.statusDue = 0 + 1 ∧
        sample.reportThreshold < sample.pri.status ∧ s.rpu.queue.length < 16) ∧
      ((under at1 s).profile = some at1 ∧ at1.pri.status ≤ at1.reportThreshold) := by decide +kernel

theorem witness_SpeedSamplesAndBlocks :
    (sampling.inReset = false ∧ sampling.profile.isSome) ∧
      (base.profile = some sample ∧ base.sau.speedT0 = some 0 ∧ elapsed 1000 0 = sample.speedInterval) ∧
      sample.spdAvg ≤ { base.sau with blockCount := 4 }.blockCount := by decide +kernel

theorem witness_ConditionFlagsFollowOrLatch :
    base.alertLatch = false ∧ sampling.alertLatch = true ∧ Cond.speedHigh ≠ .profileFallback ∧
      AlertFlag.encoder ≠ Cond.speedHigh.flag ∧ AlertFlag.encoder ≠ .reportsDropped := by decide +kernel

theorem witness_ClearPulse :
    base.ready = true ∧ (true = true ∧ base.sau.clearRef = false) ∧
      (let s := { base with sau := { base.sau with clearRef := true } }
       s.ready = true ∧ s.sau.clearRef = true) ∧
      base.alertLatch = false ∧ (under { sample with alertLatch := true } base).alertLatch = true := by decide +kernel

/-- The debounce expired at PSEL 2 with profile 1 active, in the loader's states; at PSEL 1 in DRAINING; and with 2
refused. -/
theorem witness_ProfileSelection :
    let expired (l : LoaderState) (v : BitVec 2) (refused : Option (BitVec 2)) :=
      { selecting v 1013200 with pfl := { (selecting v 1013200).pfl with
        loader := l, debounce := some 1003200, refused := refused } }
    ((selecting 1 1000000).ready = true ∧ (2 : BitVec 2) ≠ (selecting 1 1000000).pins.psel) ∧
      (∀ l ∈ [LoaderState.running, .draining, .fallback, .loading],
        let s := expired l 2 none
        s.inReset = false ∧ s.pfl.debounce = some 1003200 ∧ elapsed s.wpu.time 1003200 = 10000 ∧
          s.pfl.refused ≠ some s.pins.psel ∧ s.pfl.activeNumber ≠ some s.pins.psel) ∧
      ((expired .draining 1 none).pfl.loader = .draining ∧
        (expired .draining 1 none).pfl.activeNumber = some (expired .draining 1 none).pins.psel) ∧
      (expired .running 2 (some 2)).pfl.refused = some (expired .running 2 (some 2)).pins.psel ∧
      ((expired .draining 2 (some 2)).pfl.loader = .draining ∧
        (expired .draining 2 (some 2)).pfl.activeNumber ≠ some 2 ∧
        (expired .draining 2 (some 2)).pfl.refused = some 2) := by decide +kernel

theorem witness_DrainEndAndStoreSharing :
    let s := loader .draining .free
    let l : Lnb := { Lnb.reset with ctx := some ⟨3, 20002, none, .refused .uncaptured, 64, 64⟩ }
    let refusing := { s with lnb := s.lnb.set .ch0 l }
    let held := { s with frt := { s.frt with entries := [entry 87 0 18000 none] } }
    let programmer := { loader .running .programmer with pins := { base.pins with sreq := true } }
    let free := { loader .awaitingStore .free with pins := { base.pins with sreq := true } }
    (refusing.inReset = false ∧ refusing.pfl.loader = .draining ∧ refusing.frt.entries = [] ∧
        ∀ c ∈ Ch.all, (refusing.lnb.get c).placing = false) ∧
      (held.inReset = false ∧ held.frt.entries ≠ []) ∧ base.pfl.loader ≠ .draining ∧
      ((filling 20002 (.placed 77 1 3)).inReset = false ∧
        ((filling 20002 (.placed 77 1 3)).lnb.get .ch1).ctx.map (·.disp) = some (.placed 77 1 3)) ∧
      (free.pfl.owner = .free ∧ programmer.pfl.owner = .programmer ∧ (loader .loading .loader).pfl.owner = .loader ∧
        (loader .loading .loader).pfl.transaction = some headerRead ∧
        (loader .loadingInitial .loader).pfl.transaction = none) ∧
      (base.ready = true ∧ base.pins.sreq = false ∧ base.pfl.owner = .free) ∧
      ((loader .loading .loader).ready = true ∧ (loader .loading .loader).pins.sreq = false ∧
        (loader .loading .loader).pfl.owner = .loader) ∧
      (programmer.ready = true ∧ programmer.pins.sreq = true ∧ programmer.pfl.owner = .programmer) ∧
      (free.inReset = false ∧ free.pfl.owner = .free ∧ free.pins.sreq = true ∧ free.pfl.loader = .awaitingStore) := by
  decide +kernel

theorem witness_AcceptedLoadBecomesActive :
    (loader .loading .loader).ready = true ∧ (loader .loading .loader).pfl.loader = .loading ∧
      (loader .loading .loader).pfl.target = some 2 ∧ judge ⟨sampleHeader, sampleRecord⟩ 2 = none := by decide +kernel

/-- A changed word, with profile 1 active and with none. -/
theorem witness_RefusedLoadKeepsTheActiveProfile :
    let none' := { loader .loading .loader with
      pfl := { (loader .loading .loader).pfl with active := none } }
    (∀ s ∈ [loader .loading .loader, none'], s.ready = true ∧ s.pfl.loader = .loading ∧ s.pfl.target = some 2) ∧
      judge ⟨sampleHeader, 4 :: sampleRecord.drop 1⟩ 2 = some .checksum ∧
      (loader .loading .loader).pfl.active = some ⟨1, sample⟩ ∧ none'.pfl.active = none := by decide +kernel

/-- The start-up load after a reset's end with PSEL at 2: its first read, and the second, of profile 0. -/
def starting (target : BitVec 2) (first : Option Reason) : State :=
  { State.reset with
    inReset := false
    wpu := { Wpu.reset with encRef := some (false, false) }
    pfl := { Pfl.reset .powerOn with
      target := some target, pselStable := 2, firstReason := first, transaction := some headerRead } }

theorem witness_StartUpLoadOutcomes :
    (∀ s ∈ [starting 2 none, starting 0 (some .checksum)], s.ready = true ∧ s.pfl.loader = .loadingInitial) ∧
      judge ⟨sampleHeader, sampleRecord⟩ 2 = none ∧
      (judge ⟨sampleHeader, 4 :: sampleRecord.drop 1⟩ 2 = some .checksum ∧ (starting 2 none).pfl.firstReason = none ∧
        (2 : BitVec 2) ≠ 0) ∧
      (judge ⟨sampleHeader, 4 :: sampleRecord.drop 1⟩ 0 = some .checksum ∧
        (starting 0 (some .checksum)).pfl.firstReason.isSome) := by decide +kernel

theorem witness_AcceptedProfilesMeetTheChecks :
    (¬(valueAt (2 :: sampleHeader.drop 1) 0 2 = 1 ∧ 1 ≤ valueAt (2 :: sampleHeader.drop 1) 2 1 ∧
        valueAt (2 :: sampleHeader.drop 1) 2 1 ≤ 4)) ∧
      (valueAt sampleHeader 0 2 = 1 ∧ 1 ≤ valueAt sampleHeader 2 1 ∧ valueAt sampleHeader 2 1 ≤ 4 ∧
        (3 : BitVec 2).toNat < valueAt sampleHeader 2 1 ∧
        ((List.range 64).map fun i => valueAt (4 :: sampleRecord.drop 1) (4 * i) 4).sum % 2 ^ 32 ≠ 0) ∧
      (let h := [1, 0, 2] ++ sampleHeader.drop 3
       valueAt h 0 2 = 1 ∧ 1 ≤ valueAt h 2 1 ∧ valueAt h 2 1 ≤ 4 ∧ valueAt h 2 1 ≤ (2 : BitVec 2).toNat) ∧
      judge ⟨sampleHeader, sampleRecord⟩ 3 = none ∧ ((decodeProfile sampleRecord).ch.get .ch0).enable = true := by
  decide +kernel

/-! ### The invariants: a state that has each, and a step from it -/

theorem witness_StepKeepsThePosition :
    (sdist (back 3).wpu.wpos (back 3).wpu.wmax = ((back 3).wpu.depth : Int) ∧
      (back 3).wpu.depth ≤ Config.maxDepth) ∧ (got (step (back 3))).isSome ∧
      (got (exec (.encoderTransition false true (.all true)) (back 3))).isSome := by decide +kernel

theorem witness_StepKeepsTheLock : LockInv (locked 11021) ∧ (got (step (locked 11021))).isSome := by
  refine ⟨⟨by decide +kernel, by decide +kernel, by decide +kernel, by decide +kernel⟩, by decide +kernel⟩

theorem witness_StepKeepsTheTriggerQueues : TriggerQueueInv pulsing ∧ (got (step pulsing)).isSome := by
  refine ⟨fun c => ?_, by decide +kernel⟩
  cases c
  · exact ⟨by decide, fun i r h => by cases i <;> cases h⟩
  · exact ⟨by decide, fun i r h => by cases i <;> cases h⟩
  · refine ⟨by decide, fun i r h => ?_⟩
    rcases i with _ | _ | i <;> cases h
    decide
  · exact ⟨by decide, fun i r h => by cases i <;> cases h⟩

/-- Two entries, the newest OPEN. -/
def framed : State :=
  { base with frt := { base.frt with
    entries := [entry 41 0 10000 (some (14000, .real)), entry 42 1 14000 none], serial := 42 } }

theorem witness_StepKeepsTheFrameTable : FrameTableInv framed ∧ (got (step framed)).isSome := by
  refine ⟨⟨by decide +kernel, by decide +kernel, by decide +kernel, by decide +kernel, fun a h => ?_⟩, by decide +kernel⟩
  cases h
  decide

theorem witness_StepKeepsTheEgressUnit : (EgressInv up ∧ LinkInv up) ∧ (got (step up)).isSome := by
  refine ⟨⟨⟨by decide +kernel, by decide +kernel, fun g h => by cases h⟩, ?_⟩, by decide +kernel⟩
  exact ⟨by decide +kernel, by decide +kernel, by decide +kernel, by decide +kernel, by decide +kernel⟩

theorem witness_StepKeepsReportsAndAlert :
    let s := { base with rpu := { base.rpu with queue := outageQueue } }
    (ReportQueueInv s ∧ AlertInv s) ∧ (got (step s)).isSome := by
  refine ⟨⟨⟨by decide +kernel, by decide +kernel, by decide +kernel⟩, ?_⟩, by decide +kernel⟩
  show _ = _
  decide +kernel

theorem witness_StepKeepsTheStoreAndTheHeldReset :
    (StoreInv (loader .loading .loader) ∧ (got (step (loader .loading .loader))).isSome) ∧
      ResetHeldInv State.reset ∧ (got (step State.reset)).isSome := by
  exact ⟨⟨⟨by decide +kernel, by decide +kernel, by decide +kernel, by decide +kernel⟩, by decide +kernel⟩,
    fun _ => rfl, by decide +kernel⟩

/-- An empty queue, and a queue with FIRE at its front. -/
theorem witness_OnlyALoadChangesTheProfile :
    (Instr.fire .ch2 ≠ .powerOn ∧ Instr.fire .ch2 ≠ .resetPin ∧ (∀ h r, Instr.fire .ch2 ≠ .loadReadEnd h r) ∧
      (got (exec (.fire .ch2) atFire)).isSome) ∧
      base.pending.head? = none ∧ { atFire with pending := [.fire .ch2] }.pending.head? = some (.fire .ch2) ∧
      (got (step base)).isSome ∧ (got (step { atFire with pending := [.fire .ch2] })).isSome := by
  refine ⟨⟨by decide, by decide, fun h r e => ?_, by decide +kernel⟩, by decide +kernel⟩
  cases e

end Sys2Proof.Tests
end

section
/-! SUPPORT. A command from outside first takes every event that is due (log 2). Where none is due, each of these
leaves the state as it is, so a ready state meets the command as it stands. -/

namespace Sys2Proof.Machine

/-! ## An event that is not due is not taken -/

/-- What is done under the active profile changes nothing where it changes nothing for any profile. -/
theorem withProfile_of_fixed {f : Profile → State → State} {s : State} (h : ∀ p, f p s = s) : s.withProfile f = s := by
  unfold State.withProfile
  split
  · rfl
  · exact h _

theorem takeQualifies_of_not_due {s : State} (h : s.qualifiesDue = false) : takeQualifies s = s := by
  unfold takeQualifies
  split
  · exact if_neg (Bool.eq_false_iff.mp h)
  · rfl

theorem takeWindow_of_not_due {s : State} (h : s.windowDue = false) : takeWindow s = s :=
  withProfile_of_fixed fun _ => if_neg (Bool.eq_false_iff.mp h)

theorem takeLatency_of_not_due {c : Ch} {s : State} (h : s.latencyDue c = false) : takeLatency c s = s :=
  if_neg (Bool.eq_false_iff.mp h)

theorem takeFire_of_not_due {c : Ch} {s : State} (h : s.fireDue c = false) : takeFire c s = s :=
  withProfile_of_fixed fun _ => if_neg (Bool.eq_false_iff.mp h)

theorem takeStall_of_not_due {c : Ch} {s : State} (h : s.stallDue c = false) : takeStall c s = s :=
  if_neg (Bool.eq_false_iff.mp h)

theorem takeFence_of_not_due {c : Ch} {s : State} (h : s.fenceDue c = false) : takeFence c s = s :=
  if_neg (Bool.eq_false_iff.mp h)

theorem takePulseEnd_of_not_due {c : Ch} {s : State} (h : s.pulseDue c = false) : takePulseEnd c s = s :=
  if_neg (Bool.eq_false_iff.mp h)

theorem takeInterval_of_not_due {s : State} (h : s.intervalDue = false) : takeInterval s = s :=
  withProfile_of_fixed fun _ => if_neg (Bool.eq_false_iff.mp h)

theorem takeBlockEnd_of_not_due {s : State} (h : s.blockDue = false) : takeBlockEnd s = s :=
  withProfile_of_fixed fun _ => if_neg (Bool.eq_false_iff.mp h)

theorem takeDebounce_of_not_due {s : State} (h : s.debounceDue = false) : takeDebounce s = s :=
  if_neg (Bool.eq_false_iff.mp h)

theorem takeDrainEnd_of_not_due {s : State} (h : s.drainDue = false) : takeDrainEnd s = s :=
  if_neg (Bool.eq_false_iff.mp h)

theorem takeGrant_of_not_due {s : State} (h : s.grantDue = false) : takeGrant s = s :=
  if_neg (Bool.eq_false_iff.mp h)

theorem takeLoadingStart_of_not_due {s : State} (h : s.loadDue = false) : takeLoadingStart s = s :=
  if_neg (Bool.eq_false_iff.mp h)

theorem formReportGroup_of_not_due {s : State} (h : s.formDue = false) : formReportGroup s = s := by
  unfold formReportGroup
  split
  · rename_i hp hw hq
    have hostDown : s.egu.hostUp = false := by simpa [State.formDue, hp, hw, hq] using h
    exact if_neg (Bool.eq_false_iff.mp hostDown)
  · rfl

/-! ## A quiet state settles to itself -/

theorem settleChannel_of_quiet {c : Ch} {s : State} (h : s.channelQuiet c = true) : settleChannel c s = s := by
  simp only [State.channelQuiet, Bool.and_eq_true, Bool.not_eq_true'] at h
  obtain ⟨⟨⟨⟨latency, fire⟩, stall⟩, fence⟩, pulse⟩ := h
  rw [settleChannel, takeLatency_of_not_due latency, takeFire_of_not_due fire, takeStall_of_not_due stall,
    takeFence_of_not_due fence, takePulseEnd_of_not_due pulse]

theorem forChannels_of_fixed {f : Ch → State → State} {s : State} (h : ∀ c, f c s = s) : s.forChannels f = s :=
  List.foldl_fixed' h Ch.all

/-- Where nothing is due, taking what is due changes nothing (log 2). -/
theorem settle_of_quiet {s : State} (h : s.quiet = true) : settle s = s := by
  simp only [State.quiet, Bool.and_eq_true, Bool.not_eq_true', List.all_eq_true, beq_iff_eq] at h
  obtain ⟨⟨⟨⟨⟨⟨⟨⟨⟨⟨qualifies, window⟩, channels⟩, interval⟩, block⟩, debounce⟩, status⟩, drain⟩, grant⟩, load⟩,
    form⟩ := h
  have channelsFixed : s.forChannels settleChannel = s :=
    forChannels_of_fixed fun c => settleChannel_of_quiet (channels c c.forall_mem_all)
  simp only [settle, takeQualifies_of_not_due qualifies, takeWindow_of_not_due window, channelsFixed,
    takeInterval_of_not_due interval, takeBlockEnd_of_not_due block, takeDebounce_of_not_due debounce, status,
    repeatTimes, takeDrainEnd_of_not_due drain, takeGrant_of_not_due grant, takeLoadingStart_of_not_due load,
    formReportGroup_of_not_due form]

/-- A ready state: no reset is held, and taking what is due changes nothing. -/
theorem State.ready_settled {s : State} (h : s.ready = true) : s.inReset = false ∧ settle s = s := by
  simp only [State.ready, Bool.and_eq_true, Bool.not_eq_true'] at h
  exact h.imp_right settle_of_quiet

end Sys2Proof.Machine
end

section
/-! SUPPORT. Positions and their signed distance (R10), and the encoder transition of a ready state (R1 to R4). -/

namespace Sys2Proof.Machine

/-! ## Signed distance (R10) -/

/-- The residue of b − a, with 2^40 taken off in its upper half. -/
theorem sdist_eq_ite (a b : Pos) :
    sdist a b = if 2 ^ 39 ≤ (b - a).toNat then ((b - a).toNat : Int) - 2 ^ 40 else ((b - a).toNat : Int) := by
  rw [sdist, BitVec.toInt_eq_toNat_cond]
  split <;> split <;> omega

theorem neg_two_pow_le_sdist (a b : Pos) : -(2 ^ 39) ≤ sdist a b := BitVec.le_toInt (b - a)

theorem sdist_le_two_pow_sub_one (a b : Pos) : sdist a b ≤ 2 ^ 39 - 1 :=
  Int.le_sub_one_of_lt (BitVec.toInt_lt (x := b - a))

/-- The signed distance is the way from one position to the other, modulo 2^40. -/
theorem add_ofInt_sdist (a b : Pos) : a + BitVec.ofInt 40 (sdist a b) = b := by
  rw [sdist, BitVec.ofInt_toInt, BitVec.add_comm, BitVec.sub_add_cancel]

theorem sdist_self (a : Pos) : sdist a a = 0 := by rw [sdist, BitVec.sub_self, BitVec.toInt_zero]

theorem sdist_eq_zero_iff (a b : Pos) : sdist a b = 0 ↔ a = b where
  mp h := by simpa [h] using add_ofInt_sdist a b
  mpr h := h ▸ sdist_self a

theorem atOrPast_iff (a b : Pos) : atOrPast a b = true ↔ 0 ≤ sdist a b := decide_eq_true_iff

theorem before_iff (a b : Pos) : before a b = true ↔ sdist a b < 0 := decide_eq_true_iff

/-- Strictly past: at or past, and another position. -/
theorem one_le_sdist_iff (a b : Pos) : 1 ≤ sdist a b ↔ atOrPast a b = true ∧ a ≠ b := by
  rw [atOrPast_iff, ne_eq, ← sdist_eq_zero_iff]
  omega

theorem posAdd_toNat (a : Pos) (n : Nat) : (posAdd a n).toNat = (a.toNat + n) % 2 ^ 40 := by
  rw [posAdd, BitVec.toNat_add, BitVec.toNat_ofNat, Nat.add_mod_mod]

theorem posSub_toNat (a : Pos) (n : Nat) : ((posSub a n).toNat : Int) = ((a.toNat : Int) - n) % 2 ^ 40 := by
  rw [posSub, BitVec.toNat_sub, BitVec.toNat_ofNat]
  omega

/-! ## The encoder transition -/

/-- In a ready state the pair is observed in the state as it stands, under the new levels. -/
theorem exec_encoderTransition_of_ready {s : State} (a b : Bool) (rdy : Quad Bool) (h : s.ready = true) :
    exec (.encoderTransition a b rdy) s = .next (observePair (a, b) (s.setEncoderPins a b rdy)) := by
  obtain ⟨released, settled⟩ := State.ready_settled h
  simp only [exec, execEncoderTransition, released, settled, Bool.false_eq_true, if_false]

theorem observePair_of_forward {q r : Bool × Bool} {s : State} (href : s.wpu.encRef = some r)
    (hfwd : classifyPair s.encInverted r q = .forward) :
    observePair q s = takeForward { s with wpu := { s.wpu with encRef := some q } } := by
  simp only [observePair, href, hfwd]

/-- Above depth 0 a forward transition moves WPOS and the depth alone (R4). -/
theorem takeForward_of_depth_pos {s : State} (h : 0 < s.wpu.depth) :
    takeForward s = { s with wpu := { s.wpu with wpos := s.wpu.wpos + 1, depth := s.wpu.depth - 1 } } :=
  if_neg h.ne'

/-- At depth 1 WMAX is the next position after WPOS. -/
theorem PositionInv.wpos_add_one {s : State} (inv : PositionInv s) (h : s.wpu.depth = 1) :
    s.wpu.wpos + 1 = s.wpu.wmax := by
  obtain ⟨distance, -⟩ := inv
  rw [h, Nat.cast_one] at distance
  simpa [distance] using add_ofInt_sdist s.wpu.wpos s.wpu.wmax

end Sys2Proof.Machine
end

section
/-! The statements of chapter 1. -/

namespace Sys2Proof.Machine

/-- Settles O6: the signed distance is the two's complement reading of b − a. -/
theorem signedDistanceOfPositions : Obligations.SignedDistanceOfPositions := fun a b =>
  ⟨sdist_eq_ite a b, neg_two_pow_le_sdist a b, sdist_le_two_pow_sub_one a b, atOrPast_iff a b, before_iff a b,
    one_le_sdist_iff a b, fun n => ⟨posAdd_toNat a n, posSub_toNat a n⟩⟩

/-- Settles O9: a ready state observes the pair as it stands, and above depth 0 the forward class is a return. -/
theorem returnMovesWposAlone : Obligations.ReturnMovesWposAlone := by
  intro s a b rdy r hready href hfwd hdepth
  refine ⟨?_, PositionInv.wpos_add_one⟩
  have observed := observePair_of_forward (s := s.setEncoderPins a b rdy) href hfwd
  rw [exec_encoderTransition_of_ready a b rdy hready, observed, takeForward_of_depth_pos]
  · rfl
  · exact hdepth

end Sys2Proof.Machine
end

section
/-! SUPPORT. Pixel conversion: the output bytes of each format of Table 5-2 (R85, R86). -/

namespace Sys2Proof.Machine

/-! ## Pixel conversion (R85, R86) -/

theorem leNat_pair (l h : Byte) : leNat [l, h] = l.toNat + 256 * h.toNat := rfl

theorem ChanProfile.convert_of_pass {q : ChanProfile} (hq : q.format = .pass) (px : List Byte) :
    q.convert px = px := by
  rw [convert, hq]

theorem ChanProfile.convert_of_byteExchange {q : ChanProfile} (hq : q.format = .byteExchange) (px : List Byte) :
    q.convert px = px.reverse := by
  rw [convert, hq]

theorem ChanProfile.convert_of_narrow {q : ChanProfile} (hq : q.format = .narrow) (px : List Byte) :
    q.convert px = [BitVec.ofNat 8 (min 255 (leNat px / 2 ^ q.shift))] := by
  rw [convert, hq]

/-- With SHIFT 8 the low byte is shifted out, and what remains is too small to be clamped. -/
theorem ChanProfile.convert_of_narrow_shift_eight {q : ChanProfile} (hq : q.format = .narrow) (hshift : q.shift = 8)
    (l h : Byte) : q.convert [l, h] = [h] := by
  have value : min 255 (leNat [l, h] / 2 ^ 8) = h.toNat := by
    rw [leNat_pair]
    omega
  rw [convert_of_narrow hq, hshift, value, BitVec.ofNat_toNat, BitVec.setWidth_eq]

/-- With SHIFT 0 nothing is shifted out, so a value that does not fit one byte is clamped. -/
theorem ChanProfile.convert_of_narrow_shift_zero {q : ChanProfile} (hq : q.format = .narrow) (hshift : q.shift = 0)
    {px : List Byte} (hpx : 255 < leNat px) : q.convert px = [255] := by
  rw [convert_of_narrow hq, hshift, pow_zero, Nat.div_one, min_eq_left hpx.le]
  rfl

end Sys2Proof.Machine
end

section
/-! The statements of chapter 5. -/

namespace Sys2Proof.Machine

/-- Settles O27, format by format. -/
theorem pixelConversion : Obligations.PixelConversion := by
  intro q l h
  refine ⟨fun narrow => ⟨?formula, ?shiftEight, ?shiftZero⟩, fun pass => ?pass, fun exchange => ?exchange⟩
  case formula => rw [ChanProfile.convert_of_narrow narrow, leNat_pair]
  case shiftEight => exact fun hshift => ChanProfile.convert_of_narrow_shift_eight narrow hshift l h
  case shiftZero => exact fun hshift clamped => ChanProfile.convert_of_narrow_shift_zero narrow hshift clamped
  case pass => exact ⟨ChanProfile.convert_of_pass pass _, ChanProfile.convert_of_pass pass _⟩
  case exchange => exact ChanProfile.convert_of_byteExchange exchange [l, h]

end Sys2Proof.Machine
end

section
/-! SUPPORT. Invariants that read a few blocks: a step's operations that change other blocks only keep them, so that
only the operations on the blocks they read are left to prove. -/

namespace Sys2Proof.Machine

/-! ## Blocks of the remaining operations -/

theorem setEncoderPins_within (a b : Bool) (r : Quad Bool) (s : State) : Within [.pins] s (s.setEncoderPins a b r) :=
  within_pins (by decide) ..

theorem setHold_within (l : Bool) (s : State) : Within [.frt] s (s.setHold l) := within_frt (by decide) ..

theorem setClearPin_within (l : Bool) (s : State) : Within [.pins] s (s.setClearPin l) := within_pins (by decide) ..

theorem setSreqPin_within (l : Bool) (s : State) : Within [.pins] s (s.setSreqPin l) := within_pins (by decide) ..

theorem addMicrosecond_within (s : State) : Within [.wpu] s s.addMicrosecond := within_wpu (by decide) ..

theorem within_pending {bs : List Block} (h : .pending ∈ bs) (s : State) (q : List Instr) :
    Within bs s { s with pending := q } := by
  constructor <;> intro n <;> first | rfl | exact absurd h n

theorem observeMark_within (l : Bool) (s : State) : Within [.pins, .mkt] s (observeMark l s) :=
  .ite (fun _ => .refl ..) fun _ => .ite (fun _ => within_pins (by decide) ..) fun _ =>
    (within_pins (by decide) ..).trans (within_mkt (by decide) ..)

theorem observePsel_within (v : BitVec 2) (s : State) : Within [.pins, .pfl] s (observePsel v s) := by
  unfold observePsel
  split
  · exact .refl ..
  · constructor <;> intro n <;> first | rfl | exact absurd (by decide) n

theorem assertSreq_within (s : State) : Within [.pins, .pfl] s (assertSreq s) :=
  .ite (fun _ => .refl ..) fun _ => .ite
    (fun _ => ((setSreqPin_within ..).mono (by decide)).trans ((grantStore_within _).mono (by decide)))
    fun _ => (setSreqPin_within ..).mono (by decide)

theorem releaseSreq_within (s : State) : Within [.pins, .pfl] s (releaseSreq s) :=
  .ite (fun _ => .ite (fun _ => ((setSreqPin_within ..).mono (by decide)).trans (within_pfl (by decide) ..))
    fun _ => (setSreqPin_within ..).mono (by decide)) fun _ => .refl ..

theorem endReset_within (s : State) : Within [.inReset, .wpu, .pfl] s (endReset s) := by
  unfold endReset
  split
  · constructor <;> intro n <;> first | rfl | exact absurd (by decide) n
  · exact .refl ..

/-! ## The active profile -/

theorem withProfile_of_some {f : Profile → State → State} {s : State} {p : Profile} (h : s.profile = some p) :
    s.withProfile f = f p s := by
  unfold State.withProfile
  rw [h]

theorem withProfile_of_none {f : Profile → State → State} {s : State} (h : s.profile = none) :
    s.withProfile f = s := by
  unfold State.withProfile
  rw [h]

/-- What is done under the active profile has a property that `s` has and that it gives under any profile. -/
theorem withProfile_cases {P : State → Prop} {f : Profile → State → State} {s : State} (idle : P s)
    (active : ∀ p, s.profile = some p → P (f p s)) : P (s.withProfile f) := by
  cases h : s.profile with
  | none => rwa [withProfile_of_none h]
  | some p => rw [withProfile_of_some h]; exact active p h

/-! ## What a property does not read -/

/-- A property that does not read the blocks `unread`, and that every operation keeps which changes another block. The
operations that change blocks of `unread` alone need no proof of their own. -/
structure Kept (unread : List Block) (P : State → Prop) : Prop where
  blind : ∀ {s t}, Within unread s t → P s → P t
  pending : .pending ∈ unread := by decide
  takeQualifies : markBlocks ⊆ unread ∨ ∀ s, P s → P (takeQualifies s) := by exact .inl (by decide)
  takeWindow : markBlocks ⊆ unread ∨ ∀ s, P s → P (takeWindow s) := by exact .inl (by decide)
  takeLatency : triggerBlocks ⊆ unread ∨ ∀ c s, P s → P (takeLatency c s) := by exact .inl (by decide)
  takeFire : triggerBlocks ⊆ unread ∨ ∀ c s, P s → P (takeFire c s) := by exact .inl (by decide)
  takeStall : lineBlocks ⊆ unread ∨ ∀ c s, P s → P (takeStall c s) := by exact .inl (by decide)
  takeFence : bindBlocks ⊆ unread ∨ ∀ c s, P s → P (takeFence c s) := by exact .inl (by decide)
  takePulseEnd : [.tgn] ⊆ unread ∨ ∀ c s, P s → P (takePulseEnd c s) := by exact .inl (by decide)
  takeInterval : reportBlocks ⊆ unread ∨ ∀ s, P s → P (takeInterval s) := by exact .inl (by decide)
  takeBlockEnd : reportBlocks ⊆ unread ∨ ∀ s, P s → P (takeBlockEnd s) := by exact .inl (by decide)
  takeDebounce : [.pfl] ⊆ unread ∨ ∀ s, P s → P (takeDebounce s) := by exact .inl (by decide)
  takeStatus : reportBlocks ⊆ unread ∨ ∀ s, P s → P (takeStatus s) := by exact .inl (by decide)
  takeDrainEnd : [.pfl] ⊆ unread ∨ ∀ s, P s → P (takeDrainEnd s) := by exact .inl (by decide)
  takeGrant : [.pfl] ⊆ unread ∨ ∀ s, P s → P (takeGrant s) := by exact .inl (by decide)
  takeLoadingStart : [.pfl] ⊆ unread ∨ ∀ s, P s → P (takeLoadingStart s) := by exact .inl (by decide)
  formReportGroup : reportBlocks ⊆ unread ∨ ∀ s, P s → P (formReportGroup s) := by exact .inl (by decide)
  addMicrosecond : [.wpu] ⊆ unread ∨ ∀ s, s.inReset = false → P s → P s.addMicrosecond := by exact .inl (by decide)
  resetBlocks : ∀ k s, P s → P (resetBlocks k s)
  endReset : [.inReset, .wpu, .pfl] ⊆ unread ∨ ∀ s, P s → P (endReset s) := by exact .inl (by decide)
  observePair : encoderBlocks ⊆ unread ∨ ∀ q s, s.inReset = false → P s → P (observePair q s) := by
    exact .inl (by decide)
  setPins : [.pins] ⊆ unread ∨ ∀ s v, P s → P { s with pins := v } := by exact .inl (by decide)
  observeMark : [.pins, .mkt] ⊆ unread ∨ ∀ l s, s.inReset = false → P s → P (observeMark l s) := by
    exact .inl (by decide)
  setHold : [.frt] ⊆ unread ∨ ∀ l s, P s → P (s.setHold l) := by exact .inl (by decide)
  acceptRequest : [.egu] ⊆ unread ∨ ∀ r s, r.fromGrabber = true → s.inReset = false → P s → P (acceptRequest r s) := by
    exact .inl (by decide)
  admitPiece : pieceBlocks ⊆ unread ∨ ∀ s, s.inReset = false → P s → P (admitPiece s) := by exact .inl (by decide)
  admitPass : [.egu] ⊆ unread ∨ ∀ s, s.inReset = false → P s → P (admitPass s) := by exact .inl (by decide)
  admitFrameItem : [.frt, .egu] ⊆ unread ∨ ∀ s, s.inReset = false → P s → P (admitFrameItem s) := by
    exact .inl (by decide)
  admitRecord : [.rpu, .egu] ⊆ unread ∨ ∀ s, s.inReset = false → P s → P (admitRecord s) := by exact .inl (by decide)
  admitMessage : [.rpu, .egu] ⊆ unread ∨ ∀ s, s.inReset = false → P s → P (admitMessage s) := by
    exact .inl (by decide)
  sendEgress : [.egu] ⊆ unread ∨ ∀ s, s.inReset = false → P s → P (sendEgress s) := by exact .inl (by decide)
  takeDownstream : [.egu] ⊆ unread ∨ ∀ r s, s.inReset = false → P s → P (takeDownstream r s) := by
    exact .inl (by decide)
  sendDownstream : [.egu] ⊆ unread ∨ ∀ s, s.inReset = false → P s → P (sendDownstream s) := by exact .inl (by decide)
  hostLinkUp : [.egu] ⊆ unread ∨ ∀ s, s.inReset = false → P s → P (hostLinkUp s) := by exact .inl (by decide)
  linkReset : pieceBlocks ⊆ unread ∨ ∀ s, s.inReset = false → P s → P (linkReset s) := by exact .inl (by decide)
  grabberTrained : [.egu] ⊆ unread ∨ ∀ s, s.inReset = false → P s → P (grabberTrained s) := by exact .inl (by decide)
  grabberLost : [.egu] ⊆ unread ∨ ∀ s, s.inReset = false → P s → P (grabberLost s) := by exact .inl (by decide)
  sampleClear : openBlocks ⊆ unread ∨ ∀ l s, s.inReset = false → P s → P (sampleClear l s) := by exact .inl (by decide)
  observePsel : [.pins, .pfl] ⊆ unread ∨ ∀ v s, s.inReset = false → P s → P (observePsel v s) := by
    exact .inl (by decide)
  assertSreq : [.pins, .pfl] ⊆ unread ∨ ∀ s, s.inReset = false → P s → P (assertSreq s) := by exact .inl (by decide)
  releaseSreq : [.pins, .pfl] ⊆ unread ∨ ∀ s, s.inReset = false → P s → P (releaseSreq s) := by exact .inl (by decide)
  takeReadEnd : loadBlocks ⊆ unread ∨ ∀ h r s, s.inReset = false → P s → P (takeReadEnd h r s) := by
    exact .inl (by decide)

namespace Kept

variable {unread : List Block} {P : State → Prop}

/-- What changes unread blocks alone keeps the property. -/
theorem of_within (k : Kept unread P) {bs : List Block} (h : bs ⊆ unread) {s t : State} (w : Within bs s t)
    (hs : P s) : P t := k.blind (w.mono h) hs

theorem pins_kept (k : Kept unread P) (s : State) (v : Pins) (hs : P s) : P { s with pins := v } :=
  k.setPins.elim (fun h => k.of_within h (within_pins (by decide) s v) hs) fun f => f s v hs

/-- Such a property is kept by every operation that a step is made of. -/
theorem byAll (k : Kept unread P) : KeptByAll P where
  pending s q := k.blind (within_pending k.pending s q)
  takeQualifies := k.takeQualifies.elim (fun h s => k.of_within h (takeQualifies_within s)) id
  takeWindow := k.takeWindow.elim (fun h s => k.of_within h (takeWindow_within s)) id
  takeLatency := k.takeLatency.elim (fun h c s => k.of_within h (takeLatency_within c s)) id
  takeFire := k.takeFire.elim (fun h c s => k.of_within h (takeFire_within c s)) id
  takeStall := k.takeStall.elim (fun h c s => k.of_within h (takeStall_within c s)) id
  takeFence := k.takeFence.elim (fun h c s => k.of_within h (takeFence_within c s)) id
  takePulseEnd := k.takePulseEnd.elim (fun h c s => k.of_within h (takePulseEnd_within c s)) id
  takeInterval := k.takeInterval.elim (fun h s => k.of_within h (takeInterval_within s)) id
  takeBlockEnd := k.takeBlockEnd.elim (fun h s => k.of_within h (takeBlockEnd_within s)) id
  takeDebounce := k.takeDebounce.elim (fun h s => k.of_within h (takeDebounce_within s)) id
  takeStatus := k.takeStatus.elim (fun h s => k.of_within h (takeStatus_within s)) id
  takeDrainEnd := k.takeDrainEnd.elim (fun h s => k.of_within h (takeDrainEnd_within s)) id
  takeGrant := k.takeGrant.elim (fun h s => k.of_within h (takeGrant_within s)) id
  takeLoadingStart := k.takeLoadingStart.elim (fun h s => k.of_within h (takeLoadingStart_within s)) id
  formReportGroup := k.formReportGroup.elim (fun h s => k.of_within h (formReportGroup_within s)) id
  addMicrosecond := k.addMicrosecond.elim (fun h s _ => k.of_within h (addMicrosecond_within s)) id
  resetBlocks := k.resetBlocks
  endReset := k.endReset.elim (fun h s => k.of_within h (endReset_within s)) id
  setEncoderPins _ _ _ s := k.pins_kept s _
  observePair := k.observePair.elim (fun h q s _ => k.of_within h (observePair_within q s)) id
  setMark _ s := k.pins_kept s _
  observeMark := k.observeMark.elim (fun h l s _ => k.of_within h (observeMark_within l s)) id
  setHold := k.setHold.elim (fun h l s => k.of_within h (setHold_within l s)) id
  acceptRequest := k.acceptRequest.elim (fun h r s _ _ => k.of_within h (acceptRequest_within r s)) id
  admitPiece := k.admitPiece.elim (fun h s _ => k.of_within h (admitPiece_within s)) id
  admitPass := k.admitPass.elim (fun h s _ => k.of_within h (admitPass_within s)) id
  admitFrameItem := k.admitFrameItem.elim (fun h s _ => k.of_within h (admitFrameItem_within s)) id
  admitRecord := k.admitRecord.elim (fun h s _ => k.of_within h (admitRecord_within s)) id
  admitMessage := k.admitMessage.elim (fun h s _ => k.of_within h (admitMessage_within s)) id
  sendEgress := k.sendEgress.elim (fun h s _ => k.of_within h (sendEgress_within s)) id
  takeDownstream := k.takeDownstream.elim (fun h r s _ => k.of_within h (takeDownstream_within r s)) id
  sendDownstream := k.sendDownstream.elim (fun h s _ => k.of_within h (sendDownstream_within s)) id
  hostLinkUp := k.hostLinkUp.elim (fun h s _ => k.of_within h (hostLinkUp_within s)) id
  linkReset := k.linkReset.elim (fun h s _ => k.of_within h (linkReset_within s)) id
  grabberTrained := k.grabberTrained.elim (fun h s _ => k.of_within h (grabberTrained_within s)) id
  grabberLost := k.grabberLost.elim (fun h s _ => k.of_within h (grabberLost_within s)) id
  setClearPin _ s := k.pins_kept s _
  sampleClear := k.sampleClear.elim (fun h l s _ => k.of_within h (sampleClear_within l s)) id
  setPsel _ s := k.pins_kept s _
  observePsel := k.observePsel.elim (fun h v s _ => k.of_within h (observePsel_within v s)) id
  setSreqPin _ s := k.pins_kept s _
  assertSreq := k.assertSreq.elim (fun h s _ => k.of_within h (assertSreq_within s)) id
  releaseSreq := k.releaseSreq.elim (fun h s _ => k.of_within h (releaseSreq_within s)) id
  takeReadEnd := k.takeReadEnd.elim (fun h b r s _ => k.of_within h (takeReadEnd_within b r s)) id

theorem step (k : Kept unread P) (s t : State) (hs : P s) (h : Machine.step s = .next t) : P t :=
  step_keeps k.byAll s t hs h

end Kept

/-! ## Blocks of a command -/

theorem tick_within (s : State) : Within [.wpu, .mkt, .tgn, .lnb, .frt, .rpu, .sau, .pfl] s (tick s) :=
  .ite (fun _ => .refl ..) fun _ => (((settle_within s).mono (by decide)).trans
    ((addMicrosecond_within _).mono (by decide))).trans ((sampleClear_within ..).mono (by decide))

/-- The shape of a command that only keeps a line's level while a reset is held. -/
theorem held_within {bs cs : List Block} {s : State} {f g : State → State} (hf : Within bs s (f s))
    (hg : Within bs (settle s) (g (settle s))) (hb : bs ⊆ cs) (hs : settleBlocks ⊆ cs) :
    Within cs s (if s.inReset then f s else g (settle s)) :=
  .ite (fun _ => hf.mono hb) fun _ => ((settle_within s).mono hs).trans (hg.mono hb)

/-- What an encoder transition or a sample of CLEAR can change: not the EGU. -/
abbrev webBlocks : List Block := [.pins, .wpu, .mkt, .tgn, .lnb, .frt, .rpu, .sau, .pfl]

/-- What every other command that is no reset or its end can change: not the WPU. -/
abbrev commonBlocks : List Block := [.pins, .mkt, .tgn, .lnb, .frt, .egu, .rpu, .sau, .pfl]

/-- What a command can change. -/
def commandBlocks : Instr → List Block
  | .powerOn | .resetPin => [.inReset, .wpu, .mkt, .tgn, .lnb, .frt, .egu, .rpu, .sau, .pfl]
  | .resetEnd => [.inReset, .wpu, .pfl]
  | .encoderTransition _ _ _ | .clearPulse _ => webBlocks
  | _ => commonBlocks

theorem hostFirstUp_within (s : State) : Within [.egu] s (hostFirstUp s) :=
  .ite (fun _ => .refl ..) fun _ => hostLinkUp_within s

theorem hostReset_within (s : State) : Within pieceBlocks s (hostReset s) :=
  .ite (fun _ => linkReset_within s) fun _ => .refl ..

theorem hostReturn_within (s : State) : Within [.egu] s (hostReturn s) :=
  .ite (fun _ => hostLinkUp_within s) fun _ => .refl ..

theorem resetBlocks_within (k : StartCause) (s : State) :
    Within [.inReset, .wpu, .mkt, .tgn, .lnb, .frt, .egu, .rpu, .sau, .pfl] s (resetBlocks k s) := by
  constructor <;> intro n <;> first | rfl | exact absurd (by decide) n

theorem live_common {bs : List Block} {f : State → State} (h : ∀ s, Within bs s (f s)) (hb : bs ⊆ commonBlocks)
    (s : State) : Within commonBlocks s (live f s) := (live_within h s).mono hb

theorem outside_common {bs : List Block} {f : State → State} (h : ∀ s, Within bs s (f s)) (hb : bs ⊆ commonBlocks)
    (s : State) : Within commonBlocks s (outside f s) :=
  (outside_within h s).mono (List.append_subset.2 ⟨by decide, hb⟩)

/-- Every command changes the blocks of its rules at most. -/
theorem exec_within {c : Instr} {s t : State} (h : exec c s = .next t) : Within (commandBlocks c) s t := by
  cases c with
  | powerOn | resetPin => cases h; exact resetBlocks_within ..
  | resetEnd => cases h; exact endReset_within s
  | encoderTransition a b r =>
    cases h
    exact held_within (bs := .pins :: encoderBlocks) (cs := webBlocks) (f := fun s => s.setEncoderPins a b r)
      (g := fun s => observePair (a, b) (s.setEncoderPins a b r)) ((setEncoderPins_within ..).mono (by decide))
      (((setEncoderPins_within ..).mono (by decide)).trans ((observePair_within ..).mono (by decide)))
      (by decide) (by decide)
  | clearPulse l =>
    cases h
    exact (((setClearPin_within l s).mono (by decide)).trans ((tick_within _).mono (by decide)) : Within webBlocks s _)
  | markChange l =>
    cases h
    exact held_within (bs := [.pins, .mkt]) (cs := commonBlocks) (f := fun s => { s with pins := { s.pins with mark := l } })
      (g := observeMark l) (within_pins (by decide) ..) (observeMark_within l _) (by decide) (by decide)
  | holdChange l =>
    cases h
    exact held_within (cs := commonBlocks) (f := fun s => s.setHold l) (g := fun s => s.setHold l) (setHold_within l s)
      (setHold_within l _) (by decide) (by decide)
  | pselChange v =>
    cases h
    exact held_within (bs := [.pins, .pfl]) (cs := commonBlocks) (f := fun s => { s with pins := { s.pins with psel := v } })
      (g := observePsel v) (within_pins (by decide) ..) (observePsel_within v _) (by decide) (by decide)
  | sreqAssert =>
    cases h
    exact held_within (bs := [.pins, .pfl]) (cs := commonBlocks) (f := fun s => s.setSreqPin true) (g := assertSreq)
      ((setSreqPin_within true s).mono (by decide)) (assertSreq_within _) (by decide) (by decide)
  | sreqRelease =>
    cases h
    exact held_within (bs := [.pins, .pfl]) (cs := commonBlocks) (f := fun s => s.setSreqPin false) (g := releaseSreq)
      ((setSreqPin_within false s).mono (by decide)) (releaseSreq_within _) (by decide) (by decide)
  | grabberRequestAccept r =>
    simp only [exec, execGrabberRequestAccept] at h
    split at h
    · cases h; exact outside_common (acceptRequest_within r) (by decide) s
    · cases h
  | candidateQualifies => cases h; exact live_common takeQualifies_within (by decide) s
  | windowRunsOut => cases h; exact live_common takeWindow_within (by decide) s
  | fire c => cases h; exact live_common (takeFire_within c) (by decide) s
  | triggerPulseEnd c => cases h; exact live_common (takePulseEnd_within c) (by decide) s
  | latencyExpiry c => cases h; exact live_common (takeLatency_within c) (by decide) s
  | stall c => cases h; exact live_common (takeStall_within c) (by decide) s
  | fence c => cases h; exact live_common (takeFence_within c) (by decide) s
  | reportGroupForm => cases h; exact live_common formReportGroup_within (by decide) s
  | statusEvent => cases h; exact live_common takeStatus_within (by decide) s
  | speedIntervalExpiry => cases h; exact live_common takeInterval_within (by decide) s
  | speedBlockEnd => cases h; exact live_common takeBlockEnd_within (by decide) s
  | pselDebounceExpiry => cases h; exact live_common takeDebounce_within (by decide) s
  | drainEnd => cases h; exact live_common takeDrainEnd_within (by decide) s
  | storeGrant => cases h; exact live_common takeGrant_within (by decide) s
  | loadingStart => cases h; exact live_common takeLoadingStart_within (by decide) s
  | pieceAdmission => cases h; exact outside_common admitPiece_within (by decide) s
  | passThroughAdmission => cases h; exact outside_common admitPass_within (by decide) s
  | frameItemAdmission => cases h; exact outside_common admitFrameItem_within (by decide) s
  | reportRecordAdmission => cases h; exact outside_common admitRecord_within (by decide) s
  | messageInterrupt => cases h; exact outside_common admitMessage_within (by decide) s
  | egressSend => cases h; exact outside_common sendEgress_within (by decide) s
  | downstreamRequest r => cases h; exact outside_common (takeDownstream_within r) (by decide) s
  | downstreamSend => cases h; exact outside_common sendDownstream_within (by decide) s
  | hostLinkFirstUp => cases h; exact outside_common hostFirstUp_within (by decide) s
  | hostLinkReset => cases h; exact outside_common hostReset_within (by decide) s
  | hostLinkReturn => cases h; exact outside_common hostReturn_within (by decide) s
  | grabberLinkTrained => cases h; exact outside_common grabberTrained_within (by decide) s
  | grabberLinkLoss => cases h; exact outside_common grabberLost_within (by decide) s
  | loadReadEnd b r => cases h; exact outside_common (takeReadEnd_within b r) (by decide) s

end Sys2Proof.Machine
end

section
/-! SUPPORT. What an observed encoder pair makes of the WPU (R1 to R8), and its positions through it. -/

namespace Sys2Proof.Machine

/-! ## Positions one tick on and one back -/

/-- A way within the range of the signed distance is the signed distance to where it leads. -/
theorem sdist_eq_of_add_ofInt {a b : Pos} {z : Int} (h : a + BitVec.ofInt 40 z = b) (lo : -(2 ^ 39) ≤ z)
    (hi : z ≤ 2 ^ 39 - 1) : sdist a b = z := by
  have way : b - a = BitVec.ofInt 40 z := by rw [← h, BitVec.add_comm, BitVec.add_sub_cancel]
  rw [sdist, way, BitVec.toInt_ofInt]
  exact Int.bmod_eq_of_le (by omega) (by omega)

/-- A position one tick on is one tick nearer to what lies ahead. -/
theorem sdist_add_one {a b : Pos} (h : 0 ≤ sdist a b) : sdist (a + 1) b = sdist a b - 1 := by
  have hi := sdist_le_two_pow_sub_one a b
  refine sdist_eq_of_add_ofInt ?_ (by omega) (by omega)
  calc a + 1 + BitVec.ofInt 40 (sdist a b - 1)
      = a + (BitVec.ofInt 40 1 + BitVec.ofInt 40 (sdist a b - 1)) := BitVec.add_assoc ..
    _ = a + BitVec.ofInt 40 (sdist a b) := by rw [← BitVec.ofInt_add]; congr 2; omega
    _ = b := add_ofInt_sdist a b

/-- A position one tick back is one tick farther from what lies ahead. -/
theorem sdist_sub_one {a b : Pos} (h : 0 ≤ sdist a b) (h' : sdist a b < 2 ^ 39 - 1) :
    sdist (a - 1) b = sdist a b + 1 := by
  refine sdist_eq_of_add_ofInt ?_ (by omega) (by omega)
  calc a - 1 + BitVec.ofInt 40 (sdist a b + 1)
      = a - 1 + (BitVec.ofInt 40 (sdist a b) + 1) := by rw [BitVec.ofInt_add]; rfl
    _ = a + BitVec.ofInt 40 (sdist a b) := by
        rw [BitVec.add_comm (BitVec.ofInt 40 (sdist a b)), ← BitVec.add_assoc, BitVec.sub_add_cancel]
    _ = b := add_ofInt_sdist a b

/-! ## The WPU through an observed pair -/

/-- The WPU's own part of a return (R4). -/
def Wpu.goBack (w : Wpu) : Wpu := { w with wpos := w.wpos + 1, depth := w.depth - 1 }

/-- What an observed pair can make of the WPU: an equal pair leaves it, and any other becomes the reference, with an
advance at depth 0, a return above it, a reverse transition with or without a deep reversal, or an encoder error. -/
inductive Wpu.Observed (w : Wpu) (q : Bool × Bool) : Wpu → Prop where
  | same : Observed w q w
  | first : Observed w q { w with encRef := some q }
  | advance (h : w.depth = 0) : Observed w q { w.advance with encRef := some q }
  | goBack (h : 0 < w.depth) : Observed w q { w.goBack with encRef := some q }
  | reverse : Observed w q { w.reverse with encRef := some q }
  | deepReverse : Observed w q { w.reverse with encRef := some q, deepDelivered := true }
  | error (n : Nat) : Observed w q { w with encRef := some q, encErrors := n }

theorem takeForward_wpu (s : State) :
    (takeForward s).wpu = if s.wpu.depth = 0 then s.wpu.advance else s.wpu.goBack := by
  unfold takeForward
  split
  · exact (deliverAdvance_within _).wpu (by decide)
  · rfl

theorem takeReverse_wpu (s : State) :
    (takeReverse s).wpu = if s.deepDue then { s.wpu.reverse with deepDelivered := true } else s.wpu.reverse := by
  unfold takeReverse
  dsimp only
  split
  · exact (mktDeepReversal_within _).wpu (by decide)
  · rfl

theorem takeEncoderError_wpu (s : State) :
    (takeEncoderError s).wpu = { s.wpu with encErrors := satInc Config.sat16 s.wpu.encErrors } :=
  (raiseFlag_within ..).wpu (by decide)

/-- The encoder reference takes no part in a reverse transition. -/
theorem Wpu.reverse_encRef (w : Wpu) (r : Option (Bool × Bool)) :
    ({ w with encRef := r } : Wpu).reverse = { w.reverse with encRef := r } := by
  unfold Wpu.reverse
  split <;> rfl

theorem observePair_wpu (q : Bool × Bool) (s : State) : s.wpu.Observed q (observePair q s).wpu := by
  unfold observePair
  dsimp only
  split
  · exact .first
  · split
    case h_1 => exact .same
    case h_2 =>
      rw [takeForward_wpu]
      split
      · exact .advance ‹_›
      · exact .goBack (Nat.pos_of_ne_zero ‹_›)
    case h_3 =>
      rw [takeReverse_wpu, Wpu.reverse_encRef]
      split
      · exact .deepReverse
      · exact .reverse
    case h_4 =>
      rw [takeEncoderError_wpu]
      exact .error _

/-! ## The positions in agreement -/

/-- PositionInv, of the WPU alone. -/
def Wpu.InPlace (w : Wpu) : Prop := sdist w.wpos w.wmax = (w.depth : Int) ∧ w.depth ≤ Config.maxDepth

theorem positionInv_iff (s : State) : PositionInv s ↔ s.wpu.InPlace := Iff.rfl

/-- A property of the positions and the depth is one of any WPU with the same. -/
theorem Wpu.InPlace.congr {v w : Wpu} (h : v.InPlace) (hp : w.wpos = v.wpos) (hm : w.wmax = v.wmax)
    (hd : w.depth = v.depth) : w.InPlace := by
  unfold Wpu.InPlace at *
  rwa [hp, hm, hd]

theorem Wpu.advance_inPlace {w : Wpu} (h : w.depth = 0) : w.advance.InPlace :=
  ⟨by rw [show w.advance.depth = 0 from h]; exact sdist_self _, h.trans_le (Nat.zero_le _)⟩

theorem Wpu.InPlace.goBack {w : Wpu} (h : w.InPlace) (hd : 0 < w.depth) : w.goBack.InPlace := by
  obtain ⟨distance, bound⟩ := h
  refine ⟨?_, (Nat.sub_le ..).trans bound⟩
  have nearer : sdist (w.wpos + 1) w.wmax = (w.depth : Int) - 1 := by rw [sdist_add_one (by omega), distance]
  simp only [Wpu.goBack, nearer]
  omega

theorem Wpu.InPlace.reverse {w : Wpu} (h : w.InPlace) : w.reverse.InPlace := by
  unfold Wpu.reverse
  split
  · exact h
  · obtain ⟨distance, bound⟩ := h
    have below : w.depth < Config.maxDepth := lt_of_le_of_ne bound ‹_›
    unfold Config.maxDepth at below
    have farther : sdist (w.wpos - 1) w.wmax = (w.depth : Int) + 1 := by
      rw [sdist_sub_one (by omega) (by omega), distance]
    refine ⟨?_, Nat.succ_le_of_lt (lt_of_le_of_ne bound ‹_›)⟩
    rw [farther]
    exact (Nat.cast_succ _).symm

theorem Wpu.Observed.inPlace {v w : Wpu} {q : Bool × Bool} (o : v.Observed q w) (h : v.InPlace) : w.InPlace := by
  cases o with
  | same => exact h
  | first => exact h.congr rfl rfl rfl
  | advance hd => exact (Wpu.advance_inPlace hd).congr rfl rfl rfl
  | goBack hd => exact (h.goBack hd).congr rfl rfl rfl
  | reverse => exact h.reverse.congr rfl rfl rfl
  | deepReverse => exact h.reverse.congr rfl rfl rfl
  | error => exact h.congr rfl rfl rfl

/-- A reverse transition touches neither WMAX nor TIME. -/
theorem Wpu.reverse_wmax_time (w : Wpu) : w.reverse.wmax = w.wmax ∧ w.reverse.time = w.time := by
  unfold Wpu.reverse
  split <;> exact ⟨rfl, rfl⟩

theorem Wpu.Observed.time {v w : Wpu} {q : Bool × Bool} (o : v.Observed q w) : w.time = v.time := by
  cases o with
  | same | first | advance | goBack | error => rfl
  | reverse | deepReverse => exact (Wpu.reverse_wmax_time v).2

/-- At depth 0 WPOS is WMAX, so that an advance carries WMAX one tick on. -/
theorem Wpu.InPlace.wpos_eq_wmax {w : Wpu} (h : w.InPlace) (hd : w.depth = 0) : w.wpos = w.wmax := by
  obtain ⟨distance, -⟩ := h
  rwa [hd, Nat.cast_zero, sdist_eq_zero_iff] at distance

theorem Wpu.Observed.wmax {v w : Wpu} {q : Bool × Bool} (o : v.Observed q w) (h : v.InPlace) :
    w.wmax = v.wmax ∨ w.wmax = v.wmax + 1 := by
  cases o with
  | same | first | goBack | error => exact .inl rfl
  | reverse | deepReverse => exact .inl (Wpu.reverse_wmax_time v).1
  | advance hd => exact .inr (congrArg (· + 1) (h.wpos_eq_wmax hd))

/-! ## The WPU through a command -/

theorem tick_wpu (s : State) :
    (tick s).wpu = if s.inReset then s.wpu else { s.wpu with time := s.wpu.time + 1 } := by
  unfold tick
  split
  · rfl
  · rw [(sampleClear_within ..).wpu (by decide), State.addMicrosecond_wpu, (settle_within s).wpu (by decide)]

/-- What a command that is no reset can make of the WPU. -/
inductive WpuChange (s : State) : Instr → Wpu → Prop where
  | kept {c : Instr} (h : ∀ l, c ≠ .clearPulse l) : WpuChange s c s.wpu
  | resetEnd (r : Option (Bool × Bool)) : WpuChange s .resetEnd { s.wpu with encRef := r }
  | observed {w : Wpu} (a b : Bool) (r : Quad Bool) (o : s.wpu.Observed (a, b) w) :
      WpuChange s (.encoderTransition a b r) w
  | sampled (l : Bool) :
      WpuChange s (.clearPulse l) (if s.inReset then s.wpu else { s.wpu with time := s.wpu.time + 1 })

theorem exec_wpu {c : Instr} {s t : State} (hp : c ≠ .powerOn) (hr : c ≠ .resetPin) (h : exec c s = .next t) :
    WpuChange s c t.wpu := by
  cases c with
  | powerOn => exact absurd rfl hp
  | resetPin => exact absurd rfl hr
  | resetEnd =>
    cases h
    unfold endReset
    split
    · exact .resetEnd _
    · exact .kept nofun
  | encoderTransition a b r =>
    cases h
    split
    · exact .kept nofun
    · refine .observed a b r ?_
      have o := observePair_wpu (a, b) ((settle s).setEncoderPins a b r)
      rwa [State.setEncoderPins_wpu, (settle_within s).wpu (by decide)] at o
  | clearPulse l =>
    cases h
    rw [tick_wpu]
    exact .sampled l
  | _ =>
    rw [(exec_within h).wpu (by decide : Block.wpu ∉ commonBlocks)]
    exact .kept nofun

end Sys2Proof.Machine
end

section
/-! The statement of the positions (section 1.2, section 1.7). -/

namespace Sys2Proof.Machine

theorem positionInv_kept : Kept [.inReset, .pins, .mkt, .tgn, .lnb, .frt, .egu, .rpu, .sau, .pfl, .pending]
    PositionInv where
  blind w h := by rw [positionInv_iff, w.wpu (by decide)]; exact h
  addMicrosecond := .inr fun _ _ h => h
  resetBlocks _ _ _ := ⟨sdist_self _, Nat.zero_le _⟩
  endReset := .inr fun s h => by
    unfold endReset
    split <;> exact h
  observePair := .inr fun q s _ h => (observePair_wpu q s).inPlace h

/-- Settles O52: the WPU changes only as an observed pair, an increment of TIME or a reset makes it. -/
theorem stepKeepsThePosition : Obligations.StepKeepsThePosition := by
  refine ⟨positionInv_kept.step, fun c s t hp hr h => ?_⟩
  have change := exec_wpu hp hr h
  generalize t.wpu = w at change
  cases change with
  | kept hc => exact ⟨fun l e => absurd e (hc l), fun _ => rfl, fun _ => .inl rfl⟩
  | resetEnd => exact ⟨nofun, fun _ => rfl, fun _ => .inl rfl⟩
  | observed a b r o => exact ⟨nofun, fun _ => o.time, o.wmax⟩
  | sampled l =>
    refine ⟨fun _ _ => ?time, fun hc => absurd rfl (hc l), fun _ => .inl ?wmax⟩
    case time => split <;> rfl
    case wmax => split <;> rfl

end Sys2Proof.Machine
end

section
/-! SUPPORT. What the operations of the Mark Tracker make of its state (R17 to R26, R34), and the end of a load as the
operations it is made of. -/

namespace Sys2Proof.Machine

/-! ## Acceptance, synthesis and loss of lock -/

theorem acceptInSearch_mkt (k : Candidate) (s : State) :
    (acceptInSearch k s).mkt =
      { s.mkt with newest := some ⟨k.start, false⟩, lock := .locked, coasting := 0, deferred := false, cand := none } := by
  unfold acceptInSearch
  rw [(raiseReport_within ..).mkt (by decide), (deliverMark_within ..).mkt (by decide), State.setMkt_mkt]

/-- The length from the newest mark to a candidate's start (R22). -/
def Mkt.newLength (m : Mkt) (k : Candidate) : Nat := (m.fromNewest k.start).toNat

theorem acceptReal_mkt (p : Profile) (k : Candidate) (s : State) :
    (acceptReal p k s).mkt = setHistory p (addLength (s.mkt.newLength k) s.mkt.history)
      { s.mkt with newest := some ⟨k.start, false⟩, lock := .locked, coasting := 0, deferred := false, cand := none } := by
  unfold acceptReal
  dsimp only
  split
  · rw [(raiseReport_within ..).mkt (by decide), (deliverMark_within ..).mkt (by decide),
      (deliverRepeat_within ..).mkt (by decide), State.setMkt_mkt]
    rfl
  · rw [(deliverMark_within ..).mkt (by decide), (deliverRepeat_within ..).mkt (by decide), State.setMkt_mkt]
    rfl

/-- Where a mark is synthesized and where a lock-loss bound lies: m_n + L_avg (R24, R25). -/
def Mkt.expected (m : Mkt) : Pos := posAdd m.newestPos m.lAvg

theorem synthesize_mkt (s : State) :
    (synthesize s).mkt =
      { s.mkt with newest := some ⟨s.mkt.expected, true⟩, coasting := s.mkt.coasting + 1, deferred := false,
                   lock := .coasting } := by
  unfold synthesize
  dsimp only
  split
  · rw [(raiseReport_within ..).mkt (by decide), (deliverMark_within ..).mkt (by decide), State.setMkt_mkt]
    rfl
  · rw [(deliverMark_within ..).mkt (by decide), State.setMkt_mkt]
    rfl

/-- The MKT with its lock lost (R25, R26). -/
def Mkt.lost (p : Profile) (m : Mkt) : Mkt :=
  setHistory p [] { m with lock := .search, newest := none, coasting := 0, deferred := false }

theorem loseLock_mkt (p : Profile) (cause : LossCause) (s : State) : (loseLock p cause s).mkt = s.mkt.lost p := by
  unfold loseLock
  rw [(deliverRepeat_within ..).mkt (by decide), (raiseReport_within ..).mkt (by decide), State.setMkt_mkt,
    (raiseFlag_within ..).mkt (by decide), (deliverLoss_within ..).mkt (by decide)]
  rfl

theorem expireWindow_mkt (p : Profile) (s : State) :
    (expireWindow p s).mkt = if s.mkt.coasting < p.missMax then
      { s.mkt with newest := some ⟨s.mkt.expected, true⟩, coasting := s.mkt.coasting + 1, deferred := false,
                   lock := .coasting }
      else s.mkt.lost p := by
  unfold expireWindow
  split
  · exact synthesize_mkt s
  · exact loseLock_mkt p .window s

/-- The MKT reset to SEARCH under a profile, its reference at the level given (R34). -/
def Mkt.restart (p : Profile) (reference : Bool) (m : Mkt) : Mkt :=
  setHistory p [] { m with cand := none, newest := none, deferred := false, coasting := 0, lock := .search,
                           markRef := reference, edgePending := false }

theorem mktRestart_mkt (p : Profile) (s : State) :
    (mktRestart p s).mkt = s.mkt.restart p (s.markActive s.pins.mark) :=
  (deliverRepeat_within ..).mkt (by decide)

theorem restartBlocks_mkt (p : Profile) (s : State) :
    (restartBlocks p s).mkt = s.mkt.restart p (s.markActive s.pins.mark) := by
  unfold restartBlocks
  rw [(lnbRestart_within ..).mkt (by decide),
    (forChannels_within (fun c t => tgnRestart_within p c t) _).mkt (by decide), mktRestart_mkt]

/-! ## The steps of an advance -/

/-- The fields of the MKT that a mark edge does not touch: all but the candidate, the inhibit count and the edge
itself. -/
structure Mkt.SameLock (m n : Mkt) : Prop where
  lock : n.lock = m.lock
  newest : n.newest = m.newest
  deferred : n.deferred = m.deferred
  history : n.history = m.history
  lAvg : n.lAvg = m.lAvg
  coasting : n.coasting = m.coasting

theorem Mkt.SameLock.refl (m : Mkt) : m.SameLock m := ⟨rfl, rfl, rfl, rfl, rfl, rfl⟩

theorem Mkt.SameLock.trans {m n o : Mkt} (h : m.SameLock n) (g : n.SameLock o) : m.SameLock o :=
  ⟨g.lock.trans h.lock, g.newest.trans h.newest, g.deferred.trans h.deferred, g.history.trans h.history,
    g.lAvg.trans h.lAvg, g.coasting.trans h.coasting⟩

theorem startCandidate_sameLock (p : Profile) (s : State) : s.mkt.SameLock (startCandidate p s).mkt := by
  unfold startCandidate
  dsimp only
  split
  · exact .refl _
  · exact ⟨rfl, rfl, rfl, rfl, rfl, rfl⟩
  all_goals
    split
    · exact ⟨rfl, rfl, rfl, rfl, rfl, rfl⟩
    · split
      · exact ⟨rfl, rfl, rfl, rfl, rfl, rfl⟩
      · exact .refl _

theorem finishAdvance_sameLock (s : State) : s.mkt.SameLock (finishAdvance s).mkt := by
  refine withProfile_cases (P := fun t => s.mkt.SameLock t.mkt) (.refl _) fun p _ => ?_
  dsimp only
  split
  · have judged : s.mkt.SameLock { s.mkt with edgePending := false } := ⟨rfl, rfl, rfl, rfl, rfl, rfl⟩
    exact judged.trans (startCandidate_sameLock p (s.setMkt { s.mkt with edgePending := false }))
  · exact .refl _

/-! ## The end of a load -/

/-- What differs in the loader's block alone is the state with that block replaced. -/
theorem Within.eq_setPfl {s t : State} (w : Within [.pfl] s t) : t = s.setPfl t.pfl := by
  cases s; cases t
  cases w.inReset (by decide); cases w.pins (by decide); cases w.wpu (by decide); cases w.mkt (by decide)
  cases w.tgn (by decide); cases w.lnb (by decide); cases w.frt (by decide); cases w.egu (by decide)
  cases w.rpu (by decide); cases w.sau (by decide); cases w.pending (by decide)
  rfl

/-- What differs in the EGU alone is the state with that block replaced. -/
theorem Within.eq_setEgu {s t : State} (w : Within [.egu] s t) : t = { s with egu := t.egu } := by
  cases s; cases t
  cases w.inReset (by decide); cases w.pins (by decide); cases w.wpu (by decide); cases w.mkt (by decide)
  cases w.tgn (by decide); cases w.lnb (by decide); cases w.frt (by decide); cases w.pfl (by decide)
  cases w.rpu (by decide); cases w.sau (by decide); cases w.pending (by decide)
  rfl

/-- A test for a request leaves the active profile. -/
theorem testRequest_active (s : State) : (testRequest s).pfl.active = s.pfl.active := by
  unfold testRequest
  dsimp only
  split
  case h_1 => split <;> rfl
  case h_2 => split <;> rfl
  case h_3 =>
    split
    · rfl
    · split <;> rfl
  all_goals rfl

theorem takeDebounce_active (s : State) : (takeDebounce s).pfl.active = s.pfl.active := by
  unfold takeDebounce
  split
  · exact testRequest_active _
  · rfl

theorem takeDrainEnd_active (s : State) : (takeDrainEnd s).pfl.active = s.pfl.active := by
  unfold takeDrainEnd
  split <;> rfl

theorem takeGrant_active (s : State) : (takeGrant s).pfl.active = s.pfl.active := by
  unfold takeGrant
  split <;> rfl

theorem takeLoadingStart_active (s : State) : (takeLoadingStart s).pfl.active = s.pfl.active := by
  unfold takeLoadingStart
  split <;> rfl

theorem endReset_active (s : State) : (endReset s).pfl.active = s.pfl.active := by
  unfold endReset
  split <;> rfl

theorem observePsel_active (v : BitVec 2) (s : State) : (observePsel v s).pfl.active = s.pfl.active := by
  unfold observePsel
  split <;> rfl

theorem assertSreq_active (s : State) : (assertSreq s).pfl.active = s.pfl.active := by
  unfold assertSreq
  dsimp only
  split
  · rfl
  · split <;> rfl

theorem releaseSreq_active (s : State) : (releaseSreq s).pfl.active = s.pfl.active := by
  unfold releaseSreq
  dsimp only
  split
  · split <;> rfl
  · rfl

/-- A property that reads no more of the loader than the active profile and nothing of the EGU, and that an activation
of an acceptable profile and the other operations of the end of a load keep. -/
structure KeptByLoads (P : State → Prop) : Prop where
  setPfl : ∀ s f, f.active = s.pfl.active → P s → P (s.setPfl f)
  setEgu : ∀ s v, P s → P { s with egu := v }
  activate : ∀ n g r s, judge g n = none → P s → P (activate n (decodeProfile g.record) r s)
  restartBlocks : ∀ p s, P s → P (restartBlocks p s)
  clearFolding : ∀ s, P s → P (clearFolding s)
  deliver : ∀ c v s, P s → P (deliver c v s)
  raiseReport : ∀ ev s, P s → P (raiseReport ev s)

namespace KeptByLoads

variable {P : State → Prop}

theorem testRequest (k : KeptByLoads P) (s : State) (h : P s) : P (testRequest s) := by
  rw [(testRequest_within s).eq_setPfl]
  exact k.setPfl _ _ (testRequest_active s) h

theorem releaseAndRefresh (k : KeptByLoads P) (s : State) (h : P s) : P (refreshFlow (releaseGrabber s)) := by
  rw [((releaseGrabber_within s).trans (refreshFlow_within _)).eq_setEgu]
  exact k.setEgu _ _ h

theorem enterFallback (k : KeptByLoads P) (s : State) (h : P s) : P (enterFallback s) :=
  k.testRequest _ (k.deliver _ _ _ (k.setPfl _ _ rfl h))

theorem startUpDone (k : KeptByLoads P) (n : BitVec 2) (s : State) (h : P s) : P (startUpDone n s) :=
  k.testRequest _ (k.releaseAndRefresh _ (k.raiseReport _ _ (k.setPfl _ _ rfl h)))

theorem loadAccepted (k : KeptByLoads P) {n : BitVec 2} {g : Staging} (hj : judge g n = none) (s : State) (h : P s) :
    P (loadAccepted n (decodeProfile g.record) s) := by
  unfold Machine.loadAccepted
  refine k.testRequest _ (k.raiseReport _ _ ?_)
  split
  · exact k.deliver _ _ _ (k.activate n g _ _ hj h)
  · exact k.activate n g _ _ hj h

theorem loadRefused (k : KeptByLoads P) (n : BitVec 2) (why : Reason) (s : State) (h : P s) :
    P (loadRefused n why s) := by
  unfold Machine.loadRefused
  dsimp only
  split
  · exact k.enterFallback _ (k.setPfl _ _ rfl h)
  · exact k.testRequest _ (k.raiseReport _ _ (k.clearFolding _ (k.restartBlocks _ _ (k.setPfl _ _ rfl h))))

theorem finishLoad (k : KeptByLoads P) (n : BitVec 2) (s : State) (h : P s) : P (finishLoad n s) := by
  unfold Machine.finishLoad
  dsimp only
  split
  · exact k.setPfl _ _ rfl h
  · split
    · exact k.loadAccepted ‹_› _ (k.setPfl _ _ rfl h)
    · exact k.loadRefused _ _ _ (k.setPfl _ _ rfl h)

theorem finishStartUp (k : KeptByLoads P) (n : BitVec 2) (s : State) (h : P s) : P (finishStartUp n s) := by
  unfold Machine.finishStartUp
  dsimp only
  split
  · exact h
  · split
    · exact k.startUpDone _ _ (k.activate _ _ _ _ ‹_› h)
    · split
      · exact k.releaseAndRefresh _ (k.enterFallback _ h)
      · split
        · exact k.releaseAndRefresh _ (k.enterFallback _ (k.setPfl _ _ rfl h))
        · exact k.setPfl _ _ rfl (k.setPfl _ _ rfl h)

theorem takeReadEnd (k : KeptByLoads P) (b r : List Byte) (s : State) (h : P s) : P (takeReadEnd b r s) := by
  unfold Machine.takeReadEnd
  dsimp only
  split
  · exact h
  · split
    · exact k.finishStartUp _ _ (k.setPfl _ _ rfl h)
    · exact k.finishLoad _ _ (k.setPfl _ _ rfl h)
    all_goals exact h

/-- A property that reads none of the frame table, the EGU, the RPU, the SAU and the loader is left with the resets of
an activation. -/
theorem of_blind {unread : List Block} (hu : [.frt, .egu, .rpu, .sau, .pfl] ⊆ unread)
    (blind : ∀ {s t}, Within unread s t → P s → P t) (restart : ∀ p s, P s → P (Machine.restartBlocks p s)) :
    KeptByLoads P where
  setPfl s f _ := blind (within_pfl (hu (by decide)) s f)
  setEgu s v := blind (within_egu (hu (by decide)) s v)
  activate n g r s _ h := by
    have restarted := restart (decodeProfile g.record) _ (blind (within_pfl (hu (by decide)) s
      { s.pfl with active := some { number := n, prof := decodeProfile g.record }, target := none, refused := r,
                   loader := .running, staging := none }) h)
    exact blind (((sauRestart_within _).mono (by decide)).mono hu)
      (blind (((clearFolding_within _).mono (by decide)).mono hu) (blind (within_frt (hu (by decide)) _ _) restarted))
  restartBlocks := restart
  clearFolding s := blind (((clearFolding_within s).mono (by decide)).mono hu)
  deliver c v s := blind (((deliver_within c v s).mono (by decide)).mono hu)
  raiseReport ev s := blind (((raiseReport_within ev s).mono (by decide)).mono hu)

end KeptByLoads

end Sys2Proof.Machine
end

section
/-! The statement of the lock state (sections 2.4, 2.5 and 2.7). -/

namespace Sys2Proof.Machine

/-- LockInv, of the MKT alone. -/
def Mkt.Agrees (m : Mkt) : Prop :=
  (m.lock = .search → m.newest = none ∧ m.history = [] ∧ m.coasting = 0 ∧ m.deferred = false) ∧
    (m.lock ≠ .search → m.newest.isSome) ∧ (m.lock = .coasting ↔ 1 ≤ m.coasting) ∧
    m.history.length ≤ Config.historyCapacity

theorem lockInv_iff (s : State) : LockInv s ↔ s.mkt.Agrees := Iff.rfl

namespace Mkt.Agrees

theorem of_sameLock {m n : Mkt} (h : m.Agrees) (e : m.SameLock n) : n.Agrees := by
  unfold Mkt.Agrees at *
  rwa [e.lock, e.newest, e.history, e.coasting, e.deferred]

/-- Locked at a mark, not coasting. -/
theorem of_locked {m : Mkt} (hl : m.lock = .locked) (hm : m.newest.isSome) (hc : m.coasting = 0)
    (hh : m.history.length ≤ Config.historyCapacity) : m.Agrees :=
  ⟨fun h => absurd (hl.symm.trans h) (by decide), fun _ => hm, by simp [hl, hc], hh⟩

/-- Coasting at a mark. -/
theorem of_coasting {m : Mkt} (hl : m.lock = .coasting) (hm : m.newest.isSome) (hc : 1 ≤ m.coasting)
    (hh : m.history.length ≤ Config.historyCapacity) : m.Agrees :=
  ⟨fun h => absurd (hl.symm.trans h) (by decide), fun _ => hm, by simp [hl, hc], hh⟩

/-- In SEARCH with nothing held. -/
theorem of_search {m : Mkt} (hl : m.lock = .search) (hm : m.newest = none) (hc : m.coasting = 0)
    (hh : m.history = []) (hd : m.deferred = false) : m.Agrees :=
  ⟨fun _ => ⟨hm, hh, hc, hd⟩, fun h => absurd hl h, by simp [hl, hc], by simp [hh]⟩

theorem lost (p : Profile) (m : Mkt) : (m.lost p).Agrees := of_search rfl rfl rfl rfl rfl

theorem restart (p : Profile) (r : Bool) (m : Mkt) : (m.restart p r).Agrees := of_search rfl rfl rfl rfl rfl

/-- An expiry carried out leaves the MKT coasting at a synthesized mark, or without lock. -/
theorem expireWindow {s : State} (p : Profile) (h : s.mkt.history.length ≤ Config.historyCapacity) :
    (expireWindow p s).mkt.Agrees := by
  rw [expireWindow_mkt]
  split
  · exact of_coasting rfl rfl (Nat.le_add_left ..) h
  · exact lost p s.mkt

theorem finishAdvance {s : State} (h : s.mkt.Agrees) : (finishAdvance s).mkt.Agrees :=
  h.of_sameLock (finishAdvance_sameLock s)

theorem historyBound {m : Mkt} (h : m.Agrees) : m.history.length ≤ Config.historyCapacity := by
  obtain ⟨-, -, -, bound⟩ := h
  exact bound

/-- Deferring an expiry, out of SEARCH. -/
theorem defer {m : Mkt} (h : m.Agrees) (hl : m.lock ≠ .search) : ({ m with deferred := true } : Mkt).Agrees := by
  obtain ⟨-, newest, coasting, history⟩ := h
  exact ⟨fun e => absurd e hl, newest, coasting, history⟩

end Mkt.Agrees

theorem takeQualifies_agrees {s : State} (h : s.mkt.Agrees) : (takeQualifies s).mkt.Agrees := by
  unfold takeQualifies
  split
  · split
    · refine .finishAdvance ?_
      split
      · rw [acceptReal_mkt]
        exact .of_locked rfl rfl rfl (List.length_take_le _ _)
      · rw [acceptInSearch_mkt]
        exact .of_locked rfl rfl rfl h.historyBound
    · exact h
  · exact h

theorem windowDue_lock {s : State} (h : s.windowDue = true) : s.mkt.lock ≠ .search := by
  unfold State.windowDue at h
  split at h
  · cases h
  · simp only [Bool.and_eq_true, bne_iff_ne] at h
    obtain ⟨⟨⟨⟨-, lock⟩, -⟩, -⟩, -⟩ := h
    exact lock

theorem takeWindow_agrees {s : State} (h : s.mkt.Agrees) : (takeWindow s).mkt.Agrees := by
  refine withProfile_cases (P := fun t => t.mkt.Agrees) h fun p _ => ?_
  dsimp only
  split
  · refine .finishAdvance ?_
    split
    · split
      · exact h.defer (windowDue_lock ‹_›)
      · exact .expireWindow _ h.historyBound
    · exact .expireWindow _ h.historyBound
  · exact h

theorem candidateProgress_agrees {p : Profile} {a : Bool} {s : State} (h : s.mkt.Agrees) :
    (candidateProgress p a s).mkt.Agrees := by
  unfold candidateProgress
  split
  · exact h
  · split
    · exact h.of_sameLock ⟨rfl, rfl, rfl, rfl, rfl, rfl⟩
    · split
      · exact .expireWindow p h.historyBound
      · exact h.of_sameLock ⟨rfl, rfl, rfl, rfl, rfl, rfl⟩

theorem mktAdvance_agrees {s : State} (h : s.mkt.Agrees) : (mktAdvance s).mkt.Agrees := by
  unfold mktAdvance
  dsimp only
  split
  · exact h.of_sameLock ⟨rfl, rfl, rfl, rfl, rfl, rfl⟩
  · exact .finishAdvance (candidateProgress_agrees (h.of_sameLock ⟨rfl, rfl, rfl, rfl, rfl, rfl⟩))

theorem deliverAdvance_mkt (s : State) : (deliverAdvance s).mkt = (mktAdvance s).mkt := by
  unfold deliverAdvance
  rw [(evaluateAll_within _).mkt (by decide), (countAdvance_within _).mkt (by decide),
    (forChannels_within (fun c t => countDown_within c t) _).mkt (by decide)]

theorem mktDeepReversal_agrees {s : State} (h : s.mkt.Agrees) : (mktDeepReversal s).mkt.Agrees := by
  refine withProfile_cases (P := fun t => t.mkt.Agrees) h fun p _ => ?_
  dsimp only
  split
  · exact h
  · rw [loseLock_mkt]
    exact .lost ..

theorem observePair_agrees {q : Bool × Bool} {s : State} (h : s.mkt.Agrees) : (observePair q s).mkt.Agrees := by
  unfold observePair
  dsimp only
  split
  · exact h
  · split
    case h_1 => exact h
    case h_2 =>
      unfold takeForward
      split
      · rw [deliverAdvance_mkt]
        exact mktAdvance_agrees h
      · exact h
    case h_3 =>
      unfold takeReverse
      dsimp only
      split
      · exact mktDeepReversal_agrees h
      · exact h
    case h_4 =>
      rw [(takeEncoderError_within _).mkt (by decide)]
      exact h

theorem observeMark_sameLock (l : Bool) (s : State) : s.mkt.SameLock (observeMark l s).mkt := by
  unfold observeMark
  dsimp only
  split
  · exact .refl _
  · split
    · exact .refl _
    · exact ⟨rfl, rfl, rfl, rfl, rfl, rfl⟩

theorem lockInv_kept : Kept [.inReset, .pins, .wpu, .tgn, .lnb, .frt, .egu, .rpu, .sau, .pfl, .pending] LockInv where
  blind w h := by rw [lockInv_iff, w.mkt (by decide)]; exact h
  takeQualifies := .inr fun _ => takeQualifies_agrees
  takeWindow := .inr fun _ => takeWindow_agrees
  resetBlocks _ _ _ := Mkt.Agrees.of_search rfl rfl rfl rfl rfl
  observePair := .inr fun _ _ _ => observePair_agrees
  observeMark := .inr fun l s _ h => Mkt.Agrees.of_sameLock h (observeMark_sameLock l s)
  takeReadEnd := .inr fun b r s _ h => KeptByLoads.takeReadEnd
    (.of_blind (unread := [.inReset, .pins, .wpu, .tgn, .lnb, .frt, .egu, .rpu, .sau, .pfl, .pending]) (by decide)
      (fun w h => by rw [lockInv_iff, w.mkt (by decide)]; exact h)
      fun p s _ => by rw [lockInv_iff, restartBlocks_mkt]; exact .restart ..) b r s h

/-- Settles O53: every operation of the Mark Tracker leaves it locked at a mark, coasting at a synthesized one, or in
SEARCH with nothing held. -/
theorem stepKeepsTheLock : Obligations.StepKeepsTheLock := lockInv_kept.step

end Sys2Proof.Machine
end

section
/-! SUPPORT. Invariants that read neither the lines nor the WPU, the MKT, the LNB and the EGU: what the rules of these
blocks do to them comes down to the few operations on records, entries, reports and flags that the rules are made of. -/

namespace Sys2Proof.Machine

/-- A property that reads the trigger queues, the frame table, the Report Unit, the SAU and the loader at most, and
that the operations on these keep. -/
structure KeptByRules (P : State → Prop) : Prop where
  blind : ∀ {s t}, Within [.inReset, .pins, .wpu, .mkt, .lnb, .egu, .pending] s t → P s → P t
  setTimers : ∀ s c countdown pulse, P s →
    P (s.setTgn c { s.tgn.get c with countdown := countdown, pulse := pulse })
  takeHead : ∀ s c r rest, (s.tgn.get c).ptq = r :: rest → P s → P (s.setTgn c { s.tgn.get c with ptq := rest })
  emitTrigger : ∀ p c s, s.skipReason c = none → P s → P (emitTrigger p c s)
  countNotice : ∀ k c w s, P s → P (countNotice k c w s)
  evaluate : ∀ cs sel s, P s → P (evaluate cs sel s)
  deliverMark : ∀ m s, P s → P (deliverMark m s)
  deliverLoss : ∀ b cause s, P s → P (deliverLoss b cause s)
  flagLinkReset : ∀ s, P s → P (flagLinkReset s)
  dropLinks : ∀ s, P s → P (dropLinks s)
  dropRecord : ∀ s, P s → P (dropRecord s)
  raiseReport : ∀ ev s, P s → P (raiseReport ev s)
  raiseFlag : ∀ a s, P s → P (raiseFlag a s)
  deliver : ∀ c v s, P s → P (deliver c v s)
  countAdvance : ∀ s, P s → P (countAdvance s)
  setClearRef : ∀ s a, P s → P { s with sau := { s.sau with clearRef := a } }
  clearFlags : ∀ s, P s → P (evalAlert { s with sau := { s.sau with flags := s.clearedFlags } })

namespace KeptByRules

variable {P : State → Prop}

/-! ## Blocks that are not read -/

theorem of_within (k : KeptByRules P) {bs : List Block} {s t : State} (w : Within bs s t) (hs : P s)
    (h : bs ⊆ [.inReset, .pins, .wpu, .mkt, .lnb, .egu, .pending] := by decide) : P t := k.blind (w.mono h) hs

theorem setMkt (k : KeptByRules P) (s : State) (m : Mkt) (h : P s) : P (s.setMkt m) :=
  k.of_within (within_mkt (bs := [.mkt]) (by decide) s m) h

theorem setLnb (k : KeptByRules P) (s : State) (c : Ch) (l : Lnb) (h : P s) : P (s.setLnb c l) :=
  k.of_within (within_lnb (bs := [.lnb]) (by decide) s _) h

theorem setWpu (k : KeptByRules P) (s : State) (w : Wpu) (h : P s) : P { s with wpu := w } :=
  k.of_within (within_wpu (bs := [.wpu]) (by decide) s w) h

theorem setEgu (k : KeptByRules P) (s : State) (v : Egu) (h : P s) : P { s with egu := v } :=
  k.of_within (within_egu (bs := [.egu]) (by decide) s v) h

/-! ## The Mark Tracker -/

theorem deliverRepeat (k : KeptByRules P) (long short : Bool) (s : State) (h : P s) : P (deliverRepeat long short s) :=
  k.deliver _ _ _ (k.deliver _ _ _ h)

theorem acceptInSearch (k : KeptByRules P) (x : Candidate) (s : State) (h : P s) : P (acceptInSearch x s) :=
  k.raiseReport _ _ (k.deliverMark _ _ (k.setMkt _ _ h))

theorem acceptReal (k : KeptByRules P) (p : Profile) (x : Candidate) (s : State) (h : P s) : P (acceptReal p x s) := by
  unfold Machine.acceptReal
  dsimp only
  split
  · exact k.raiseReport _ _ (k.deliverMark _ _ (k.deliverRepeat _ _ _ (k.setMkt _ _ h)))
  · exact k.deliverMark _ _ (k.deliverRepeat _ _ _ (k.setMkt _ _ h))

theorem synthesize (k : KeptByRules P) (s : State) (h : P s) : P (synthesize s) := by
  unfold Machine.synthesize
  dsimp only
  split
  · exact k.raiseReport _ _ (k.deliverMark _ _ (k.setMkt _ _ h))
  · exact k.deliverMark _ _ (k.setMkt _ _ h)

theorem loseLock (k : KeptByRules P) (p : Profile) (cause : LossCause) (s : State) (h : P s) : P (loseLock p cause s) :=
  k.deliverRepeat _ _ _ (k.raiseReport _ _ (k.setMkt _ _ (k.raiseFlag _ _ (k.deliverLoss _ _ _ h))))

theorem expireWindow (k : KeptByRules P) (p : Profile) (s : State) (h : P s) : P (expireWindow p s) := by
  unfold Machine.expireWindow
  split
  · exact k.synthesize s h
  · exact k.loseLock p _ s h

theorem finishAdvance (k : KeptByRules P) (s : State) (h : P s) : P (finishAdvance s) :=
  k.of_within (finishAdvance_within s) h

theorem takeQualifies (k : KeptByRules P) (s : State) (h : P s) : P (takeQualifies s) := by
  unfold Machine.takeQualifies
  split
  · split
    · refine k.finishAdvance _ ?_
      split
      · exact k.acceptReal _ _ s h
      · exact k.acceptInSearch _ s h
    · exact h
  · exact h

theorem takeWindow (k : KeptByRules P) (s : State) (h : P s) : P (takeWindow s) := by
  refine withProfile_cases h fun p _ => ?_
  dsimp only
  split
  · refine k.finishAdvance _ ?_
    split
    · split
      · exact k.setMkt _ _ h
      · exact k.expireWindow p s h
    · exact k.expireWindow p s h
  · exact h

theorem candidateProgress (k : KeptByRules P) (p : Profile) (active : Bool) (s : State) (h : P s) :
    P (candidateProgress p active s) := by
  unfold Machine.candidateProgress
  split
  · exact h
  · split
    · exact k.setMkt _ _ h
    · split
      · exact k.expireWindow p _ (k.setMkt _ _ h)
      · exact k.setMkt _ _ h

theorem mktAdvance (k : KeptByRules P) (s : State) (h : P s) : P (mktAdvance s) := by
  unfold Machine.mktAdvance
  dsimp only
  split
  · exact k.setMkt _ _ h
  · exact k.finishAdvance _ (k.candidateProgress _ _ _ (k.setMkt _ _ h))

theorem mktDeepReversal (k : KeptByRules P) (s : State) (h : P s) : P (mktDeepReversal s) := by
  refine withProfile_cases h fun p _ => ?_
  dsimp only
  split
  · exact h
  · exact k.loseLock p _ _ (k.setMkt _ _ h)

theorem mktRestart (k : KeptByRules P) (p : Profile) (s : State) (h : P s) : P (mktRestart p s) :=
  k.deliverRepeat _ _ _ (k.setMkt _ _ h)

/-! ## The Trigger Generator -/

theorem evaluateChannel (k : KeptByRules P) (c : Ch) (s : State) (h : P s) : P (evaluateChannel c s) :=
  k.evaluate _ _ s h

theorem expireHead (k : KeptByRules P) (c : Ch) (s : State) (h : P s) : P (expireHead c s) := by
  unfold Machine.expireHead
  split
  · exact h
  · exact k.evaluateChannel _ _ (k.countNotice _ _ _ _ (k.takeHead s c _ _ ‹_› h))

theorem emptyQueue (k : KeptByRules P) (c : Ch) (s : State) (h : P s) : P (emptyQueue c s) := by
  unfold Machine.emptyQueue
  generalize (s.tgn.get c).ptq = l
  induction l generalizing s with
  | nil => exact h
  | cons r l ih => exact ih _ (k.expireHead c s h)

theorem takeLatency (k : KeptByRules P) (c : Ch) (s : State) (h : P s) : P (takeLatency c s) := by
  unfold Machine.takeLatency
  split
  · exact k.expireHead c s h
  · exact h

theorem countDown (k : KeptByRules P) (c : Ch) (s : State) (h : P s) : P (countDown c s) := by
  unfold Machine.countDown
  split
  · split
    · exact h
    · exact k.setTimers s c _ _ h
  · exact h

theorem judgeFire (k : KeptByRules P) (p : Profile) (c : Ch) (s : State) (h : P s) : P (judgeFire p c s) := by
  unfold Machine.judgeFire
  split
  · exact k.emitTrigger p c s ‹_› h
  · exact k.countNotice _ _ _ s h

theorem takeFire (k : KeptByRules P) (c : Ch) (s : State) (h : P s) : P (takeFire c s) := by
  refine withProfile_cases h fun p _ => ?_
  dsimp only
  split
  · exact k.judgeFire p c _ (k.setTimers _ c _ _ (k.takeLatency c s h))
  · exact h

theorem takePulseEnd (k : KeptByRules P) (c : Ch) (s : State) (h : P s) : P (takePulseEnd c s) := by
  unfold Machine.takePulseEnd
  split
  · exact k.setTimers s c _ _ h
  · exact h

theorem tgnRestart (k : KeptByRules P) (p : Profile) (c : Ch) (s : State) (h : P s) : P (tgnRestart p c s) :=
  k.emptyQueue c _ (k.setTimers s c _ _ h)

/-! ## The Line Binder -/

theorem lineFault (k : KeptByRules P) (c : Ch) (kind : FaultKind) (i : Nat) (s : State) (h : P s) :
    P (lineFault c kind i s) := k.raiseReport _ _ (k.setLnb _ _ _ h)

theorem endShort (k : KeptByRules P) (c : Ch) (s : State) (h : P s) : P (endShort c s) := by
  unfold Machine.endShort
  dsimp only
  split
  · exact h
  · split
    · exact k.setLnb _ _ _ h
    · refine k.lineFault _ _ _ _ ?_
      split
      · exact k.setLnb _ _ _ h
      · exact k.evaluateChannel _ _ (k.countNotice _ _ _ _ (k.setLnb _ _ _ h))

theorem completeLine (k : KeptByRules P) (c : Ch) (s : State) (h : P s) : P (completeLine c s) := by
  unfold Machine.completeLine
  dsimp only
  split
  · exact h
  · split
    · exact k.setLnb _ _ _ h
    · exact k.evaluateChannel _ _ (k.setLnb _ _ _ h)

theorem takeStall (k : KeptByRules P) (c : Ch) (s : State) (h : P s) : P (takeStall c s) := by
  unfold Machine.takeStall
  split
  · exact k.endShort c s h
  · exact h

theorem refuseLine (k : KeptByRules P) (c : Ch) (i : Nat) (kind : FaultKind) (s : State) (h : P s) :
    P (refuseLine c i kind s) := k.lineFault _ _ _ _ (k.setLnb _ _ _ h)

theorem bindLine (k : KeptByRules P) (p : Profile) (c : Ch) (i : Nat) (r : TrigRec) (s : State) (h : P s) :
    P (bindLine p c i r s) := by
  unfold Machine.bindLine
  refine k.evaluateChannel _ _ ?_
  split
  · exact k.countNotice _ _ _ _ (k.setLnb _ _ _ h)
  · exact k.countNotice _ _ _ _ (k.lineFault _ _ _ _ (k.setLnb _ _ _ h))
  · exact k.lineFault _ _ _ _ (k.setLnb _ _ _ h)

theorem bypassHead (k : KeptByRules P) (n : Nat) (c : Ch) (s : State) (h : P s) : P (bypassHead n c s) := by
  unfold Machine.bypassHead
  split
  · exact h
  · exact k.lineFault _ _ _ _ (k.expireHead c s h)

/-- A queue without its head, also where it is empty. -/
theorem dropHead (k : KeptByRules P) (c : Ch) (s : State) (h : P s) :
    P (s.setTgn c { s.tgn.get c with ptq := (s.tgn.get c).ptq.drop 1 }) := by
  cases hq : (s.tgn.get c).ptq with
  | nil =>
    have same : ({ s.tgn.get c with ptq := [] } : Tgn) = s.tgn.get c := by rw [← hq]
    simp only [List.drop_nil, same, State.setTgn, Quad.set_get_self]
    exact h
  | cons r rest => exact k.takeHead s c r rest hq h

theorem newLineRunning (k : KeptByRules P) (p : Profile) (c : Ch) (i : Nat) (s : State) (h : P s) :
    P (newLineRunning p c i s) := by
  unfold Machine.newLineRunning
  dsimp only
  split
  · exact k.refuseLine _ _ _ _ (k.setLnb _ _ _ h)
  · exact k.bindLine _ _ _ _ _ (k.setLnb _ _ _ (k.dropHead _ _ (repeatTimes_keeps (k.bypassHead _ c) _ s h)))

theorem newLineResync (k : KeptByRules P) (p : Profile) (c : Ch) (i : Nat) (s : State) (h : P s) :
    P (newLineResync p c i s) := by
  unfold Machine.newLineResync
  split
  · exact k.refuseLine _ _ _ s h
  · exact k.bindLine _ _ _ _ _ (k.raiseReport _ _ (k.setLnb _ _ _ (k.takeHead s c _ _ ‹_› h)))

theorem newLine (k : KeptByRules P) (p : Profile) (c : Ch) (i : Nat) (s : State) (h : P s) : P (newLine p c i s) := by
  unfold Machine.newLine
  split
  · exact k.refuseLine _ _ _ s h
  · split
    · exact k.refuseLine _ _ _ s h
    · exact k.newLineResync p c i s h
    · exact k.newLineRunning p c i s h
    · exact h

theorem takeBytes (k : KeptByRules P) (p : Profile) (c : Ch) (b : Nat) (v : List Byte) (s : State) (h : P s) :
    P (takeBytes p c b v s).1 := by
  unfold Machine.takeBytes
  dsimp only
  split
  · exact h
  · dsimp only
    split
    · exact k.completeLine _ _ (k.setLnb _ _ _ h)
    · exact k.setLnb _ _ _ h

theorem handlePiece (k : KeptByRules P) (p : Profile) (c : Ch) (o : Nat) (d : List Byte) (s : State) (h : P s) :
    P (handlePiece p c o d s).1 := by
  unfold Machine.handlePiece
  dsimp only
  split
  · exact h
  · split
    · exact k.lineFault _ _ _ s h
    · exact k.takeBytes _ _ _ _ s h
    · exact k.takeBytes _ _ _ _ _ (k.newLine _ _ _ _ (k.endShort c s h))

theorem admitPieceOf (k : KeptByRules P) (p : Profile) (g : Ingress) (c : Ch) (o n : Nat) (s : State) (h : P s) :
    P (admitPieceOf p g c o n s) :=
  k.setEgu _ _ (k.setEgu _ _ (k.setEgu _ _ (k.setLnb _ _ _ (k.handlePiece p c o _ s h))))

theorem admitPiece (k : KeptByRules P) (s : State) (h : P s) : P (admitPiece s) := by
  unfold Machine.admitPiece
  split
  · split
    · exact k.admitPieceOf _ _ _ _ _ s h
    · exact h
  · exact h

theorem fenceChannel (k : KeptByRules P) (c : Ch) (s : State) (h : P s) : P (fenceChannel c s) := by
  unfold Machine.fenceChannel
  dsimp only
  refine k.raiseReport _ _ ?_
  split
  · exact k.emptyQueue _ _ (k.setLnb _ _ _ h)
  · exact k.deliver _ _ _ (k.emptyQueue _ _ (k.setLnb _ _ _ h))

theorem takeFence (k : KeptByRules P) (c : Ch) (s : State) (h : P s) : P (takeFence c s) := by
  unfold Machine.takeFence
  split
  · exact k.fenceChannel c s h
  · exact h

theorem exitFences (k : KeptByRules P) (s : State) (h : P s) : P (exitFences s) := by
  unfold Machine.exitFences
  split
  · refine k.deliver _ _ _ (forChannels_keeps (fun c t ht => ?_) s h)
    split
    · exact k.setLnb _ _ _ ht
    · exact ht
  · exact h

theorem lnbRestart (k : KeptByRules P) (p : Profile) (s : State) (h : P s) : P (lnbRestart p s) := by
  have restarted := forChannels_keeps (f := fun c t => t.setLnb c ((t.lnb.get c).restart (p.ch.get c).enable))
    (fun c t ht => k.setLnb t c _ ht) s h
  unfold Machine.lnbRestart
  dsimp only
  split
  · exact k.deliver _ _ _ restarted
  · exact restarted

theorem restartBlocks (k : KeptByRules P) (p : Profile) (s : State) (h : P s) : P (restartBlocks p s) :=
  k.lnbRestart p _ (forChannels_keeps (k.tgnRestart p) _ (k.mktRestart p s h))

/-! ## Resets of the link, CLEAR, and the encoder -/

theorem channelLinkReset (k : KeptByRules P) (c : Ch) (s : State) (h : P s) : P (channelLinkReset c s) := by
  unfold Machine.channelLinkReset
  split
  · exact k.emptyQueue _ _ (k.setLnb _ _ _ (k.endShort c s h))
  · exact h

theorem linkReset (k : KeptByRules P) (s : State) (h : P s) : P (linkReset s) :=
  forChannels_keeps k.channelLinkReset _ (k.flagLinkReset _ (repeatTimes_keeps k.dropRecord _ _ (k.dropLinks s h)))

theorem sampleClear (k : KeptByRules P) (a : Bool) (s : State) (h : P s) : P (sampleClear a s) := by
  unfold Machine.sampleClear
  dsimp only
  split
  · exact k.exitFences _ (k.clearFlags _ (k.setClearRef s a h))
  · exact k.setClearRef s a h

theorem deliverAdvance (k : KeptByRules P) (s : State) (h : P s) : P (deliverAdvance s) :=
  k.evaluate _ _ _ (k.countAdvance _ (forChannels_keeps k.countDown _ (k.mktAdvance s h)))

theorem observePair (k : KeptByRules P) (q : Bool × Bool) (s : State) (h : P s) : P (observePair q s) := by
  unfold Machine.observePair
  dsimp only
  split
  · exact k.setWpu _ _ h
  · split
    case h_1 => exact h
    case h_2 =>
      unfold takeForward
      split
      · exact k.deliverAdvance _ (k.setWpu _ _ (k.setWpu _ _ h))
      · exact k.setWpu _ _ (k.setWpu _ _ h)
    case h_3 =>
      unfold takeReverse
      dsimp only
      split
      · exact k.mktDeepReversal _ (k.setWpu _ _ (k.setWpu _ _ (k.setWpu _ _ h)))
      · exact k.setWpu _ _ (k.setWpu _ _ h)
    case h_4 => exact k.raiseFlag _ _ (k.setWpu _ _ (k.setWpu _ _ h))

end KeptByRules

end Sys2Proof.Machine
end

section
/-! The statement of the pending-trigger queues (section 3.4). -/

namespace Sys2Proof.Machine

/-- TriggerQueueInv, of one channel's TGN alone. -/
def Tgn.Orderly (t : Tgn) : Prop :=
  t.ptq.length ≤ Config.ptqCapacity ∧
    ∀ i r, t.ptq[i]? = some r → r.seq + BitVec.ofNat 32 (t.ptq.length - i) = t.seq

theorem triggerQueueInv_iff (s : State) : TriggerQueueInv s ↔ ∀ c, (s.tgn.get c).Orderly := Iff.rfl

namespace Tgn.Orderly

theorem of_empty {t : Tgn} (h : t.ptq = []) : t.Orderly := by
  unfold Tgn.Orderly
  rw [h]
  exact ⟨Nat.zero_le _, nofun⟩

theorem tail {t : Tgn} (h : t.Orderly) {r : TrigRec} {rest : List TrigRec} (hq : t.ptq = r :: rest) :
    ({ t with ptq := rest } : Tgn).Orderly := by
  unfold Tgn.Orderly at h
  rw [hq] at h
  obtain ⟨bound, numbered⟩ := h
  refine ⟨(Nat.le_succ _).trans bound, fun i x hx => ?_⟩
  have shifted := numbered (i + 1) x (by simpa using hx)
  rwa [List.length_cons, Nat.add_sub_add_right] at shifted

/-- The record of an emission takes the counter's number, and the counter the next (R39). -/
theorem push {t : Tgn} (h : t.Orderly) (hb : t.ptq.length < Config.ptqCapacity) {r : TrigRec} (hr : r.seq = t.seq)
    (pulse : Option Pulse) : ({ t with pulse := pulse, seq := t.seq + 1, ptq := t.ptq ++ [r] } : Tgn).Orderly := by
  obtain ⟨-, numbered⟩ := h
  refine ⟨by rw [List.length_append]; exact hb, fun i x hx => ?_⟩
  simp only [List.length_append, List.length_singleton]
  rcases Nat.lt_trichotomy i t.ptq.length with hi | hi | hi
  · have earlier := numbered i x (by rwa [List.getElem?_append_left hi] at hx)
    rw [Nat.sub_add_comm hi.le, ← earlier, BitVec.add_assoc, BitVec.ofNat_add]
    rfl
  · subst hi
    rw [List.getElem?_concat_length, Option.some_inj] at hx
    rw [Nat.add_sub_cancel_left, ← hx, hr]
    rfl
  · rw [List.getElem?_eq_none (by rw [List.length_append]; exact hi)] at hx
    cases hx

end Tgn.Orderly

theorem TriggerQueueInv.setTgn {s : State} (h : TriggerQueueInv s) {c : Ch} {t : Tgn} (ht : t.Orderly) :
    TriggerQueueInv (s.setTgn c t) := fun d => by
  rw [State.setTgn_tgn, Quad.get_set]
  split
  · exact ht
  · exact h d

/-- A fire that is not skipped finds room in the queue (Table 3-3). -/
theorem State.room_of_not_skipped {s : State} {c : Ch} (h : s.skipReason c = none) :
    (s.tgn.get c).ptq.length < Config.ptqCapacity := by
  unfold State.skipReason at h
  split_ifs at h with _ _ _ full
  exact Nat.lt_of_not_le full

theorem triggerQueueInv_blind {s t : State}
    (w : Within [.inReset, .pins, .wpu, .mkt, .lnb, .frt, .egu, .rpu, .sau, .pfl, .pending] s t)
    (h : TriggerQueueInv s) : TriggerQueueInv t := by
  rw [triggerQueueInv_iff, w.tgn (by decide)]
  exact h

theorem triggerQueueInv_keptByRules : KeptByRules TriggerQueueInv where
  blind w := triggerQueueInv_blind (w.mono (by decide))
  setTimers _ c _ _ h := h.setTgn (h c)
  takeHead _ c _ _ hq h := h.setTgn (Tgn.Orderly.tail (h c) hq)
  emitTrigger _ c _ hs h := h.setTgn (Tgn.Orderly.push (h c) (State.room_of_not_skipped hs) rfl _)
  countNotice k c w s := triggerQueueInv_blind ((countNotice_within k c w s).mono (by decide))
  evaluate cs sel s := triggerQueueInv_blind ((evaluate_within cs sel s).mono (by decide))
  deliverMark m s := triggerQueueInv_blind ((deliverMark_within m s).mono (by decide))
  deliverLoss b cause s := triggerQueueInv_blind ((deliverLoss_within b cause s).mono (by decide))
  flagLinkReset s := triggerQueueInv_blind ((flagLinkReset_within s).mono (by decide))
  dropLinks s := triggerQueueInv_blind ((dropLinks_within s).mono (by decide))
  dropRecord s := triggerQueueInv_blind ((dropRecord_within s).mono (by decide))
  raiseReport ev s := triggerQueueInv_blind ((raiseReport_within ev s).mono (by decide))
  raiseFlag a s := triggerQueueInv_blind ((raiseFlag_within a s).mono (by decide))
  deliver c v s := triggerQueueInv_blind ((deliver_within c v s).mono (by decide))
  countAdvance s := triggerQueueInv_blind ((countAdvance_within s).mono (by decide))
  setClearRef s _ := triggerQueueInv_blind (within_sau (by decide) s _)
  clearFlags s := triggerQueueInv_blind (within_sau (by decide) s _)

theorem triggerQueueInv_kept :
    Kept [.inReset, .pins, .wpu, .mkt, .lnb, .frt, .egu, .rpu, .sau, .pfl, .pending] TriggerQueueInv where
  blind := triggerQueueInv_blind
  takeQualifies := .inl (by decide)
  takeLatency := .inr triggerQueueInv_keptByRules.takeLatency
  takeFire := .inr triggerQueueInv_keptByRules.takeFire
  takeFence := .inr triggerQueueInv_keptByRules.takeFence
  takePulseEnd := .inr triggerQueueInv_keptByRules.takePulseEnd
  resetBlocks _ _ _ _ := Tgn.Orderly.of_empty (by rw [show (resetBlocks _ _).tgn = .all .reset from rfl, Quad.get_all]; rfl)
  observePair := .inr fun q s _ => triggerQueueInv_keptByRules.observePair q s
  admitPiece := .inr fun s _ => triggerQueueInv_keptByRules.admitPiece s
  linkReset := .inr fun s _ => triggerQueueInv_keptByRules.linkReset s
  takeReadEnd := .inr fun b r s _ =>
    (KeptByLoads.of_blind (by decide) triggerQueueInv_blind triggerQueueInv_keptByRules.restartBlocks).takeReadEnd b r s

/-- Settles O54: a queue changes only by an emission, which takes the counter's number, and by the loss of its head. -/
theorem stepKeepsTheTriggerQueues : Obligations.StepKeepsTheTriggerQueues := triggerQueueInv_kept.step

end Sys2Proof.Machine
end

section
/-! SUPPORT. What the Frame Table's operations make of its entries (R99 to R114), and the laws of the table through
them. -/

namespace Sys2Proof.Machine

/-! ## The entries through the operations -/

theorem countClosure_frt (p : Profile) (s : State) : (countClosure p s).frt = s.frt := by
  unfold countClosure
  split
  · rfl
  · split <;> rfl

theorem closeEntry_entries (p : Profile) (e : FrameEntry) (s : State) :
    (closeEntry p e s).frt.entries = if e.fin.isSome then s.frt.entries.filter (· != e) else s.frt.entries := by
  unfold closeEntry
  cases e.fin with
  | none => rfl
  | some x =>
    simp only [countClosure_frt, State.setEntries_frt, (raiseReport_within ..).frt (by decide : Block.frt ∉ reportBlocks),
      State.pushItem_frt]
    rfl

/-- A closure leaves no entry that was not there, and every one in its order. -/
theorem closeComplete_entries (p : Profile) (s : State) :
    (closeComplete p s).frt.entries.Sublist s.frt.entries := by
  unfold closeComplete
  generalize s.frt.entries.filter (·.complete p) = l
  induction l generalizing s with
  | nil => exact .refl _
  | cons e l ih =>
    refine (ih _).trans ?_
    rw [closeEntry_entries]
    split
    · exact List.filter_sublist
    · exact .refl _

/-- What the laws of the table read of an entry: its slot, and whether it is BOUNDED. -/
def FrameEntry.key (e : FrameEntry) : Nat × Bool := (e.slot, e.fin.isSome)

theorem markDone_key (s : State) (p : Profile) (cs : List Ch) (e : FrameEntry) : (s.markDone p cs e).key = e.key := by
  unfold State.markDone
  induction cs generalizing e with
  | nil => rfl
  | cons c cs ih =>
    rw [List.foldl_cons, ih]
    split <;> rfl

theorem bumpEntry_keys (k : CountKind) (c : Ch) (w : Pos) (es : List FrameEntry) :
    (bumpEntry k c w es).map (·.key) = es.map (·.key) := by
  induction es with
  | nil => rfl
  | cons e es ih =>
    unfold bumpEntry
    split
    · rfl
    · rw [List.map_cons, List.map_cons, ih]

/-! ## The laws of the table, of its slots -/

/-- The slots differ and are below 16, and every entry but the newest is BOUNDED. -/
def SlotsLawful (ks : List (Nat × Bool)) : Prop :=
  (ks.map Prod.fst).Nodup ∧ ks.Pairwise (fun k _ => k.2 = true) ∧ ∀ k ∈ ks, k.1 < 16

/-- The laws of the table, of its entries alone. -/
def EntriesLawful (es : List FrameEntry) : Prop := SlotsLawful (es.map (·.key))

/-- What holds of all but the last of a list holds of the first of any two. -/
theorem pairwise_fst_iff {α : Type} (p : α → Prop) :
    ∀ l : List α, l.Pairwise (fun a _ => p a) ↔ ∀ a ∈ l.dropLast, p a
  | [] => by simp
  | [_] => by simp
  | a :: b :: l => by
    have first : (∀ x ∈ b :: l, p a) ↔ p a := ⟨fun h => h b List.mem_cons_self, fun h _ _ => h⟩
    rw [List.pairwise_cons, first, pairwise_fst_iff p (b :: l), List.dropLast_cons_cons, List.forall_mem_cons]

/-- Entries in different slots below 16 are at most 16. -/
theorem SlotsLawful.length_le {ks : List (Nat × Bool)} (h : SlotsLawful ks) : ks.length ≤ 16 := by
  obtain ⟨different, -, below⟩ := h
  have among : ks.map Prod.fst ⊆ List.range 16 := fun j hj => by
    obtain ⟨k, hk, rfl⟩ := List.mem_map.1 hj
    exact List.mem_range.2 (below k hk)
  simpa using (different.subperm among).length_le

/-- FrameTableInv as the laws of the slots and a bound on the active profile's SLOTS. -/
theorem frameTableInv_iff (s : State) :
    FrameTableInv s ↔ EntriesLawful s.frt.entries ∧ ∀ a, s.pfl.active = some a → a.prof.slots ≤ 16 := by
  have slots : (s.frt.entries.map (·.key)).map Prod.fst = s.frt.entries.map (·.slot) := by
    rw [List.map_map]
    rfl
  have newest : (s.frt.entries.map (·.key)).Pairwise (fun k _ => k.2 = true) ↔
      ∀ e ∈ s.frt.entries.dropLast, e.fin.isSome = true := by
    rw [List.pairwise_map]
    exact pairwise_fst_iff (fun e : FrameEntry => e.fin.isSome = true) _
  have below : (∀ k ∈ s.frt.entries.map (·.key), k.1 < 16) ↔ ∀ e ∈ s.frt.entries, e.slot < 16 :=
    List.forall_mem_map
  constructor
  · rintro ⟨different, bounded, low, -, active⟩
    exact ⟨⟨slots ▸ different, newest.2 bounded, below.2 low⟩, active⟩
  · rintro ⟨lawful, active⟩
    have short := lawful.length_le
    obtain ⟨different, bounded, low⟩ := lawful
    rw [List.length_map] at short
    exact ⟨slots ▸ different, newest.1 bounded, below.1 low, short, active⟩

namespace EntriesLawful

theorem congr {es fs : List FrameEntry} (h : EntriesLawful es) (hk : fs.map (·.key) = es.map (·.key)) :
    EntriesLawful fs := by
  unfold EntriesLawful
  rwa [hk]

theorem sublist {es fs : List FrameEntry} (h : EntriesLawful es) (hs : fs.Sublist es) : EntriesLawful fs := by
  obtain ⟨different, bounded, low⟩ := h
  have hk := hs.map FrameEntry.key
  exact ⟨different.sublist (hk.map _), bounded.sublist hk, fun k hm => low k (hk.subset hm)⟩

/-- The newest entry replaced by one in its slot. -/
theorem replaceNewest {es : List FrameEntry} {e f : FrameEntry} (h : EntriesLawful (es ++ [e])) (hs : f.slot = e.slot) :
    EntriesLawful (es ++ [f]) := by
  obtain ⟨different, bounded, low⟩ := h
  simp only [List.map_append, List.map_singleton, List.pairwise_append] at different bounded low
  obtain ⟨older, -, olderBounded⟩ := bounded
  refine ⟨?_, ?_, ?_⟩
  · simpa [FrameEntry.key, hs] using different
  · rw [List.map_append, List.pairwise_append]
    exact ⟨older, List.pairwise_singleton _ _, fun k hk _ _ => olderBounded k hk _ (List.mem_singleton_self _)⟩
  · rw [List.map_append]
    intro k hk
    rcases List.mem_append.1 hk with hk | hk
    · exact low k (List.mem_append_left _ hk)
    · rw [List.mem_singleton.1 hk]
      exact hs.trans_lt (low e.key (List.mem_append_right _ (List.mem_singleton_self _)))

/-- An entry opened in a slot that no entry holds, every other being BOUNDED. -/
theorem append {es : List FrameEntry} {e : FrameEntry} (h : EntriesLawful es) (hb : ∀ x ∈ es, x.fin.isSome)
    (hs : ∀ x ∈ es, x.slot ≠ e.slot) (hl : e.slot < 16) : EntriesLawful (es ++ [e]) := by
  obtain ⟨different, -, low⟩ := h
  refine ⟨?_, ?_, ?_⟩
  · rw [List.map_append, List.map_append, List.nodup_append]
    refine ⟨different, List.nodup_singleton _, fun j hj k hk => ?_⟩
    obtain ⟨x, hx, rfl⟩ := List.mem_map.1 (List.map_map ▸ hj : j ∈ es.map (Prod.fst ∘ FrameEntry.key))
    rw [List.mem_singleton.1 hk]
    exact hs x hx
  · rw [List.map_append, List.pairwise_append]
    refine ⟨?_, List.pairwise_singleton _ _, fun k hk _ _ => ?_⟩
    · rw [List.pairwise_map]
      exact List.pairwise_of_forall_mem_list fun x hx _ _ => hb x hx
    · obtain ⟨x, hx, rfl⟩ := List.mem_map.1 hk
      exact hb x hx
  · rw [List.map_append]
    intro k hk
    rcases List.mem_append.1 hk with hk | hk
    · exact low k hk
    · rw [List.mem_singleton.1 hk]
      exact hl

end EntriesLawful

/-! ## The laws of the table through the operations -/

theorem evaluate_entriesLawful {cs : List Ch} {sel : FrameEntry → Bool} {s : State}
    (h : EntriesLawful s.frt.entries) : EntriesLawful (evaluate cs sel s).frt.entries := by
  refine withProfile_cases (P := fun t => EntriesLawful t.frt.entries) h fun p _ => ?_
  refine EntriesLawful.sublist (h.congr ?_) (closeComplete_entries p _)
  rw [State.setEntries_frt, List.map_map]
  refine List.map_congr_left fun e _ => ?_
  simp only [Function.comp_apply]
  split
  · exact markDone_key ..
  · rfl

/-- The entries of a table by its newest one. -/
theorem entries_eq_of_newest {s : State} {e : FrameEntry} (h : s.frt.entries.getLast? = some e) :
    s.frt.entries = s.frt.entries.dropLast ++ [e] := (List.dropLast_append_getLast? e h).symm

/-- The laws hold on where the newest entry's bound is set. -/
theorem EntriesLawful.setNewest {s : State} (h : EntriesLawful s.frt.entries) {e f : FrameEntry}
    (he : s.frt.entries.getLast? = some e) (hf : f.slot = e.slot) :
    EntriesLawful (setNewest s.frt.entries f) := by
  rw [entries_eq_of_newest he] at h
  exact h.replaceNewest hf

theorem boundAtMark_entriesLawful {m : Mark} {s : State} (h : EntriesLawful s.frt.entries) :
    EntriesLawful (boundAtMark m s).1.frt.entries := by
  unfold boundAtMark
  split
  case h_1 => exact h
  case h_2 hn =>
    split
    · exact h.setNewest hn rfl
    · split
      · exact h.setNewest hn rfl
      · exact h

/-- After the bound of a mark no entry is OPEN (R99). -/
theorem boundAtMark_bounded {m : Mark} {s : State} (h : EntriesLawful s.frt.entries) :
    ∀ e ∈ (boundAtMark m s).1.frt.entries, e.fin.isSome = true := by
  obtain ⟨-, pairs, -⟩ := h
  have bounded := (pairwise_fst_iff (fun e : FrameEntry => e.fin.isSome = true) _).1 (List.pairwise_map.1 pairs)
  have newest (f : FrameEntry) (hf : f.fin.isSome = true) :
      ∀ e ∈ setNewest s.frt.entries f, e.fin.isSome = true := fun e he => by
    rcases List.mem_append.1 he with he | he
    · exact bounded e he
    · rwa [List.mem_singleton.1 he]
  unfold boundAtMark
  split
  case h_1 hn =>
    rw [List.getLast?_eq_none_iff.1 hn]
    nofun
  case h_2 x hx =>
    split
    · exact newest _ rfl
    · split
      · exact newest _ rfl
      · have unchanged := newest x (by simp [*])
        rwa [setNewest, ← entries_eq_of_newest hx] at unchanged

theorem findSlot_free {s : State} {p : Profile} {j : Nat} (h : s.findSlot p = some j) :
    j < p.slots ∧ ∀ e ∈ s.frt.entries, e.slot ≠ j := by
  have free := List.find?_some h
  obtain ⟨i, hi, rfl⟩ := List.mem_map.1 (List.mem_of_find?_eq_some h)
  refine ⟨Nat.mod_lt _ (Nat.zero_lt_of_lt (List.mem_range.1 hi)), ?_⟩
  simp only [State.slotFree, Bool.and_eq_true, List.all_eq_true, bne_iff_ne] at free
  obtain ⟨entries, -⟩ := free
  exact entries

theorem exitFences_frt (s : State) : (exitFences s).frt = s.frt := by
  unfold exitFences
  split
  · rw [(deliver_within ..).frt (by decide)]
    exact (forChannels_within (bs := [.lnb]) (fun c t => .ite (fun _ => within_lnb (by decide) ..) fun _ => .refl ..)
      s).frt (by decide)
  · rfl

theorem openEntry_entries (p : Profile) (m : Mark) (j : Nat) (s : State) :
    ∃ e : FrameEntry, e.slot = j ∧ (openEntry p m j s).frt.entries = s.frt.entries ++ [e] := by
  unfold openEntry
  dsimp only
  split
  · exact ⟨_, rfl, congrArg Frt.entries (exitFences_frt _)⟩
  · exact ⟨_, rfl, rfl⟩

theorem openOrSkip_entriesLawful {p : Profile} {m : Mark} {s : State} (hp : p.slots ≤ 16)
    (h : EntriesLawful s.frt.entries) (hb : ∀ e ∈ s.frt.entries, e.fin.isSome = true) :
    EntriesLawful (openOrSkip p m s).frt.entries := by
  have skipped (ev : ReportEvent) : EntriesLawful (raiseReport ev s).frt.entries := by
    rwa [(raiseReport_within ..).frt (by decide)]
  unfold openOrSkip
  dsimp only
  split
  · exact skipped _
  · split
    · exact skipped _
    · split
      case h_1 => exact skipped _
      case h_2 j hj =>
        obtain ⟨low, free⟩ := findSlot_free hj
        obtain ⟨e, rfl, opened⟩ := openEntry_entries p m j s
        rw [opened]
        exact h.append hb free (low.trans_le hp)

theorem deliverLoss_entriesLawful {b : Pos} {cause : LossCause} {s : State} (h : EntriesLawful s.frt.entries) :
    EntriesLawful (deliverLoss b cause s).frt.entries := by
  unfold deliverLoss
  split
  case h_1 => exact h
  case h_2 hn =>
    split
    · exact evaluate_entriesLawful (h.setNewest hn rfl)
    · exact h

end Sys2Proof.Machine
end

section
/-! The statement of the frame table (sections 6.1 and 6.3). -/

namespace Sys2Proof.Machine

theorem State.active_of_profile {s : State} {p : Profile} (h : s.profile = some p) :
    ∃ a, s.pfl.active = some a ∧ a.prof = p := Option.map_eq_some_iff.1 h

/-- The laws of the table follow the table and the active profile alone. -/
theorem FrameTableInv.congr {s t : State} (h : FrameTableInv s) (hf : EntriesLawful t.frt.entries)
    (ha : t.pfl.active = s.pfl.active) : FrameTableInv t := by
  rw [frameTableInv_iff] at h ⊢
  rw [ha]
  exact h.imp_left fun _ => hf

theorem FrameTableInv.entries {s : State} (h : FrameTableInv s) : EntriesLawful s.frt.entries :=
  ((frameTableInv_iff s).1 h).left

theorem frameTableInv_blind {s t : State}
    (w : Within [.inReset, .pins, .wpu, .mkt, .tgn, .lnb, .egu, .rpu, .sau, .pending] s t) (h : FrameTableInv s) :
    FrameTableInv t :=
  h.congr (by rw [w.frt (by decide)]; exact h.entries) (by rw [w.pfl (by decide)])

theorem deliverMark_frameTableInv {m : Mark} {s : State} (h : FrameTableInv s) : FrameTableInv (deliverMark m s) := by
  refine h.congr ?_ (by rw [(deliverMark_within m s).pfl (by decide)])
  refine withProfile_cases (P := fun t => EntriesLawful t.frt.entries) h.entries fun p hp => ?_
  obtain ⟨a, ha, rfl⟩ := State.active_of_profile hp
  have bound := ((frameTableInv_iff s).1 h).right a ha
  generalize hu : ({ s with frt := { s.frt with serial := s.frt.serial + 1 } } : State) = u
  have lawful : EntriesLawful u.frt.entries := by rw [← hu]; exact h.entries
  have opened := openOrSkip_entriesLawful (m := m) bound (boundAtMark_entriesLawful (m := m) lawful)
    (boundAtMark_bounded lawful)
  dsimp only
  split
  · exact opened
  · exact evaluate_entriesLawful opened

theorem refused_unless_iff {check : Bool} {why : Reason} {next : Option Reason} :
    (if !check then some why else next) = none ↔ check = true ∧ next = none := by
  cases check <;> simp

/-- A record that is acceptable passes every check on its parameters (R164, Table 10-2). -/
theorem fault_eq_none {r : List Byte} {p : Profile} (h : p.fault r = none) :
    rangeOk r p = true ∧ p.eachEnabled ringOk = true ∧ p.eachEnabled formatOk = true ∧ p.eachEnabled trimOk = true ∧
      p.eachEnabled (staggerOk p) = true ∧ p.eachEnabled (columnSpanOk p) = true ∧ columnsApart p = true ∧
      slotSizeOk p = true ∧ aperturesApart p = true ∧ regionsApart p = true := by
  simpa only [Profile.fault, refused_unless_iff, and_true] using h

theorem judge_eq_none {g : Staging} {n : BitVec 2} (h : judge g n = none) :
    headerAcceptable g.header = true ∧ targetCounted g.header n = true ∧ intact g.record = true ∧
      (decodeProfile g.record).fault g.record = none := by
  simpa only [judge, refused_unless_iff] using h

/-- An acceptable record has at most 16 slots (R164, Table 10-2). -/
theorem slots_le_of_judge {g : Staging} {n : BitVec 2} (h : judge g n = none) :
    (decodeProfile g.record).slots ≤ 16 := by
  obtain ⟨-, -, -, checked⟩ := judge_eq_none h
  obtain ⟨range, -⟩ := fault_eq_none checked
  simp only [rangeOk, Profile.commonInRange, Bool.and_eq_true, decide_eq_true_eq] at range
  omega

theorem frameTableInv_keptByRules : KeptByRules FrameTableInv where
  blind w := frameTableInv_blind (w.mono (by decide))
  setTimers s _ _ _ := frameTableInv_blind (within_tgn (by decide) s _)
  takeHead s _ _ _ _ := frameTableInv_blind (within_tgn (by decide) s _)
  emitTrigger _ _ s _ := frameTableInv_blind (within_tgn (by decide) s _)
  countNotice k c w s h := h.congr (h.entries.congr (bumpEntry_keys k c w _)) rfl
  evaluate _ _ _ h := h.congr (evaluate_entriesLawful h.entries) (by rw [(evaluate_within ..).pfl (by decide)])
  deliverMark _ _ h := deliverMark_frameTableInv h
  deliverLoss _ _ _ h := h.congr (deliverLoss_entriesLawful h.entries) (by rw [(deliverLoss_within ..).pfl (by decide)])
  flagLinkReset _ h := h.congr (h.entries.congr (by rw [flagLinkReset, List.map_map]; rfl)) rfl
  dropLinks s := frameTableInv_blind ((dropLinks_within s).mono (by decide))
  dropRecord s := frameTableInv_blind ((dropRecord_within s).mono (by decide))
  raiseReport ev s := frameTableInv_blind ((raiseReport_within ev s).mono (by decide))
  raiseFlag a s := frameTableInv_blind ((raiseFlag_within a s).mono (by decide))
  deliver c v s := frameTableInv_blind ((deliver_within c v s).mono (by decide))
  countAdvance s := frameTableInv_blind ((countAdvance_within s).mono (by decide))
  setClearRef s _ := frameTableInv_blind (within_sau (by decide) s _)
  clearFlags s := frameTableInv_blind (within_sau (by decide) s _)

/-- An activation of an acceptable profile keeps the laws: its SLOTS is at most 16. -/
theorem activate_frameTableInv {n : BitVec 2} {g : Staging} {r : Option (BitVec 2)} {s : State}
    (hj : judge g n = none) (h : FrameTableInv s) : FrameTableInv (activate n (decodeProfile g.record) r s) := by
  have active : FrameTableInv (s.setPfl { s.pfl with
      active := some { number := n, prof := decodeProfile g.record }, target := none, refused := r, loader := .running,
      staging := none }) :=
    (frameTableInv_iff _).2 ⟨h.entries, fun a ha => by cases ha; exact slots_le_of_judge hj⟩
  have restarted := frameTableInv_keptByRules.restartBlocks (decodeProfile g.record) _ active
  exact frameTableInv_blind ((sauRestart_within _).mono (by decide))
    (frameTableInv_blind ((clearFolding_within _).mono (by decide)) (restarted.congr restarted.entries rfl))

theorem frameTableInv_keptByLoads : KeptByLoads FrameTableInv where
  setPfl _ _ hf h := h.congr h.entries hf
  setEgu s _ := frameTableInv_blind (within_egu (by decide) s _)
  activate _ _ _ _ hj h := activate_frameTableInv hj h
  restartBlocks := frameTableInv_keptByRules.restartBlocks
  clearFolding s := frameTableInv_blind ((clearFolding_within s).mono (by decide))
  deliver := frameTableInv_keptByRules.deliver
  raiseReport := frameTableInv_keptByRules.raiseReport

/-- What leaves the frame table and the active profile keeps the laws. -/
theorem FrameTableInv.of_within {s t : State} (h : FrameTableInv s)
    (w : Within [.inReset, .pins, .wpu, .mkt, .tgn, .lnb, .egu, .rpu, .sau, .pfl, .pending] s t)
    (ha : t.pfl.active = s.pfl.active) : FrameTableInv t :=
  h.congr (by rw [w.frt (by decide)]; exact h.entries) ha

theorem admitFrameItem_entries (s : State) : (admitFrameItem s).frt.entries = s.frt.entries := by
  unfold admitFrameItem
  split <;> rfl

theorem resetBlocks_frameTableInv (k : StartCause) (s : State) : FrameTableInv (resetBlocks k s) := by
  have entries : (resetBlocks k s).frt.entries = [] := rfl
  have active : (resetBlocks k s).pfl.active = none := rfl
  rw [frameTableInv_iff, entries, active]
  exact ⟨⟨List.nodup_nil, List.Pairwise.nil, fun _ hk => absurd hk List.not_mem_nil⟩,
    fun _ ha => absurd ha (Option.some_ne_none _).symm⟩

theorem frameTableInv_kept : Kept [.inReset, .pins, .wpu, .mkt, .tgn, .lnb, .egu, .rpu, .sau, .pending] FrameTableInv where
  blind := frameTableInv_blind
  takeQualifies := .inr frameTableInv_keptByRules.takeQualifies
  takeWindow := .inr frameTableInv_keptByRules.takeWindow
  takeLatency := .inr frameTableInv_keptByRules.takeLatency
  takeFire := .inr frameTableInv_keptByRules.takeFire
  takeStall := .inr frameTableInv_keptByRules.takeStall
  takeFence := .inr frameTableInv_keptByRules.takeFence
  takeDebounce := .inr fun s h => h.of_within ((takeDebounce_within s).mono (by decide)) (takeDebounce_active s)
  takeDrainEnd := .inr fun s h => h.of_within ((takeDrainEnd_within s).mono (by decide)) (takeDrainEnd_active s)
  takeGrant := .inr fun s h => h.of_within ((takeGrant_within s).mono (by decide)) (takeGrant_active s)
  takeLoadingStart := .inr fun s h =>
    h.of_within ((takeLoadingStart_within s).mono (by decide)) (takeLoadingStart_active s)
  resetBlocks k s _ := resetBlocks_frameTableInv k s
  endReset := .inr fun s h => h.of_within ((endReset_within s).mono (by decide)) (endReset_active s)
  observePair := .inr fun q s _ => frameTableInv_keptByRules.observePair q s
  setHold := .inr fun _ _ h => h.congr h.entries rfl
  admitPiece := .inr fun s _ => frameTableInv_keptByRules.admitPiece s
  admitFrameItem := .inr fun s _ h =>
    h.congr (by rw [admitFrameItem_entries]; exact h.entries) (by rw [(admitFrameItem_within s).pfl (by decide)])
  linkReset := .inr fun s _ => frameTableInv_keptByRules.linkReset s
  sampleClear := .inr fun a s _ => frameTableInv_keptByRules.sampleClear a s
  observePsel := .inr fun v s _ h => h.of_within ((observePsel_within v s).mono (by decide)) (observePsel_active v s)
  assertSreq := .inr fun s _ h => h.of_within ((assertSreq_within s).mono (by decide)) (assertSreq_active s)
  releaseSreq := .inr fun s _ h => h.of_within ((releaseSreq_within s).mono (by decide)) (releaseSreq_active s)
  takeReadEnd := .inr fun b r s _ => frameTableInv_keptByLoads.takeReadEnd b r s

/-- Settles O55: an entry is opened in a free slot once every other is BOUNDED, and nothing else adds an entry, moves
one to another slot or takes its bound away. -/
theorem stepKeepsTheFrameTable : Obligations.StepKeepsTheFrameTable := frameTableInv_kept.step

end Sys2Proof.Machine
end

section
/-! SUPPORT. Invariants of the Report Unit and the SAU: the Frame Table's work reaches these through its reports, the
exit from FENCED and the STATUS period alone. -/

namespace Sys2Proof.Machine

/-- A property that reads the Report Unit, the SAU and the loader at most, and that what the Frame Table does to the
first two keeps: its reports, the STATUS period, and the delivery of an exit from FENCED. -/
structure KeptByFrames (P : State → Prop) : Prop where
  blind : ∀ {s t}, Within [.inReset, .pins, .wpu, .mkt, .tgn, .lnb, .frt, .egu, .pending] s t → P s → P t
  raiseReport : ∀ ev s, P s → P (raiseReport ev s)
  countClosure : ∀ p s, P s → P (countClosure p s)
  unfence : ∀ s, P s → P (deliver .channelFenced false s)

/-- Such a property that the other operations on the two blocks keep too. -/
structure KeptByReports (P : State → Prop) : Prop extends KeptByFrames P where
  raiseFlag : ∀ a s, P s → P (raiseFlag a s)
  deliver : ∀ c v s, P s → P (deliver c v s)
  dropLinks : ∀ s, P s → P (dropLinks s)
  dropRecord : ∀ s, P s → P (dropRecord s)
  countAdvance : ∀ s, P s → P (countAdvance s)
  setClearRef : ∀ s a, P s → P { s with sau := { s.sau with clearRef := a } }
  clearFlags : ∀ s, P s → P (evalAlert { s with sau := { s.sau with flags := s.clearedFlags } })

namespace KeptByFrames

variable {P : State → Prop}

theorem setFrt (k : KeptByFrames P) (s : State) (f : Frt) (h : P s) : P { s with frt := f } :=
  k.blind (within_frt (by decide) s f) h

theorem closeEntry (k : KeptByFrames P) (p : Profile) (e : FrameEntry) (s : State) (h : P s) :
    P (closeEntry p e s) := by
  unfold Machine.closeEntry
  split
  · exact h
  · exact k.countClosure _ _ (k.setFrt _ _ (k.raiseReport _ _ (k.setFrt _ _ h)))

theorem closeComplete (k : KeptByFrames P) (p : Profile) (s : State) (h : P s) : P (closeComplete p s) := by
  unfold Machine.closeComplete
  generalize s.frt.entries.filter (·.complete p) = l
  induction l generalizing s with
  | nil => exact h
  | cons e l ih => exact ih _ (k.closeEntry p e s h)

theorem evaluate (k : KeptByFrames P) (cs : List Ch) (sel : FrameEntry → Bool) (s : State) (h : P s) :
    P (evaluate cs sel s) :=
  withProfile_cases h fun _ _ => k.closeComplete _ _ (k.setFrt _ _ h)

theorem exitFences (k : KeptByFrames P) (s : State) (h : P s) : P (exitFences s) := by
  unfold Machine.exitFences
  split
  · refine k.unfence _ (forChannels_keeps (fun c t ht => ?_) s h)
    split
    · exact k.blind (within_lnb (by decide) t _) ht
    · exact ht
  · exact h

theorem boundAtMark (k : KeptByFrames P) (m : Mark) (s : State) (h : P s) : P (boundAtMark m s).1 := by
  unfold Machine.boundAtMark
  split
  · exact h
  · split
    · exact k.setFrt _ _ h
    · split
      · exact k.setFrt _ _ h
      · exact h

theorem openOrSkip (k : KeptByFrames P) (p : Profile) (m : Mark) (s : State) (h : P s) : P (openOrSkip p m s) := by
  unfold Machine.openOrSkip
  dsimp only
  split
  · exact k.raiseReport _ _ h
  · split
    · exact k.raiseReport _ _ h
    · split
      · exact k.raiseReport _ _ h
      · unfold openEntry
        dsimp only
        split
        · exact k.exitFences _ (k.setFrt _ _ h)
        · exact k.setFrt _ _ h

theorem deliverMark (k : KeptByFrames P) (m : Mark) (s : State) (h : P s) : P (deliverMark m s) := by
  refine withProfile_cases h fun p _ => ?_
  have opened := k.openOrSkip p m _ (k.boundAtMark m _ (k.setFrt s { s.frt with serial := s.frt.serial + 1 } h))
  dsimp only
  split
  · exact opened
  · exact k.evaluate _ _ _ opened

theorem deliverLoss (k : KeptByFrames P) (b : Pos) (cause : LossCause) (s : State) (h : P s) :
    P (deliverLoss b cause s) := by
  unfold Machine.deliverLoss
  split
  · exact h
  · split
    · exact k.evaluate _ _ _ (k.setFrt _ _ h)
    · exact h

end KeptByFrames

namespace KeptByReports

variable {P : State → Prop}

theorem byRules (k : KeptByReports P) : KeptByRules P where
  blind w := k.blind (w.mono (by decide))
  setTimers s _ _ _ := k.blind (within_tgn (by decide) s _)
  takeHead s _ _ _ _ := k.blind (within_tgn (by decide) s _)
  emitTrigger _ _ s _ := k.blind (within_tgn (by decide) s _)
  countNotice _ _ _ s := k.setFrt s _
  evaluate := k.evaluate
  deliverMark := k.deliverMark
  deliverLoss := k.deliverLoss
  flagLinkReset s := k.setFrt s _
  dropLinks := k.dropLinks
  dropRecord := k.dropRecord
  raiseReport := k.raiseReport
  raiseFlag := k.raiseFlag
  deliver := k.deliver
  countAdvance := k.countAdvance
  setClearRef := k.setClearRef
  clearFlags := k.clearFlags

theorem compareSpeed (k : KeptByReports P) (p : Profile) (v : Nat) (s : State) (h : P s) : P (compareSpeed p v s) :=
  k.deliver _ _ _ (k.deliver _ _ _ h)

theorem followConditions (k : KeptByReports P) (s : State) (h : P s) : P (followConditions s) := by
  have delivered (l : List Cond) : P (l.foldl (fun t c => Machine.deliver c (t.sau.cond.get c) t) s) := by
    induction l generalizing s with
    | nil => exact h
    | cons c l ih => exact ih _ (k.deliver _ _ s h)
  unfold Machine.followConditions
  split
  · exact h
  · exact delivered _

end KeptByReports

end Sys2Proof.Machine
end

section
/-! The statement of the report queue and the ALERT line (sections 8.3 and 9.5). -/

namespace Sys2Proof.Machine

/-! ## The report queue -/

theorem reportQueueInv_iff (s : State) : ReportQueueInv s ↔ s.rpu.orderly := Iff.rfl

/-- The laws of the queue follow the queue and the dropped count alone. -/
theorem ReportQueueInv.congr {s t : State} (h : ReportQueueInv s) (hq : t.rpu.queue = s.rpu.queue)
    (hd : t.rpu.dropped = s.rpu.dropped) : ReportQueueInv t := by
  unfold ReportQueueInv at *
  rwa [hq, hd]

theorem reportQueueInv_blind {s t : State}
    (w : Within [.inReset, .pins, .wpu, .mkt, .tgn, .lnb, .frt, .egu, .sau, .pfl, .pending] s t)
    (h : ReportQueueInv s) : ReportQueueInv t := by
  rw [reportQueueInv_iff, w.rpu (by decide)]
  exact h

theorem countClosure_queue (p : Profile) (s : State) :
    (countClosure p s).rpu.queue = s.rpu.queue ∧ (countClosure p s).rpu.dropped = s.rpu.dropped := by
  unfold countClosure
  split
  · exact ⟨rfl, rfl⟩
  · split <;> exact ⟨rfl, rfl⟩

theorem reportQueueInv_keptByReports : KeptByReports ReportQueueInv where
  blind w := reportQueueInv_blind (w.mono (by decide))
  raiseReport _ _ := raiseReport_orderly
  raiseFlag _ _ := raiseFlag_orderly
  deliver _ _ _ := deliver_orderly
  unfence _ := deliver_orderly
  countClosure p s h := h.congr (countClosure_queue p s).1 (countClosure_queue p s).2
  dropLinks _ h := h.congr rfl rfl
  dropRecord _ h := by
    obtain ⟨short, sorted, -⟩ := h
    exact raiseReportsDropped_orderly ⟨short, sorted, Nat.min_le_left ..⟩
  countAdvance s := reportQueueInv_blind (.ite (fun _ => within_sau (by decide) ..) fun _ => .refl ..)
  setClearRef s _ := reportQueueInv_blind (within_sau (by decide) s _)
  clearFlags s := reportQueueInv_blind (within_sau (by decide) s _)

theorem setSau_reportQueueInv {s : State} (v : Sau) (h : ReportQueueInv s) : ReportQueueInv { s with sau := v } :=
  reportQueueInv_blind (within_sau (by decide) s v) h

theorem takeInterval_reportQueueInv {s : State} (h : ReportQueueInv s) : ReportQueueInv (takeInterval s) := by
  refine withProfile_cases h fun p _ => ?_
  dsimp only
  split
  · split
    · exact setSau_reportQueueInv _ h
    · exact reportQueueInv_keptByReports.compareSpeed _ _ _ (setSau_reportQueueInv _ h)
  · exact h

theorem takeBlockEnd_reportQueueInv {s : State} (h : ReportQueueInv s) : ReportQueueInv (takeBlockEnd s) := by
  refine withProfile_cases h fun p _ => ?_
  dsimp only
  split
  · split
    · exact reportQueueInv_keptByReports.compareSpeed _ _ _ (setSau_reportQueueInv _ h)
    · exact setSau_reportQueueInv _ h
  · exact h

theorem takeStatus_reportQueueInv {s : State} (h : ReportQueueInv s) : ReportQueueInv (takeStatus s) := by
  unfold takeStatus
  split
  · exact h
  · exact raiseReport_orderly (h.congr rfl rfl)

/-- The head report leaves the queue to the writer, and the dropped count starts anew (R144). -/
theorem formReportGroup_reportQueueInv {s : State} (h : ReportQueueInv s) : ReportQueueInv (formReportGroup s) := by
  unfold formReportGroup
  split
  case h_1 r rest _ _ hq =>
    split
    · obtain ⟨short, sorted, -⟩ := h
      rw [hq] at short sorted
      exact ⟨(Nat.le_succ _).trans short, (List.pairwise_cons.1 sorted).2, Nat.zero_le _⟩
    · exact h
  case h_2 => exact h

theorem admitRecord_queue (s : State) :
    (admitRecord s).rpu.queue = s.rpu.queue ∧ (admitRecord s).rpu.dropped = s.rpu.dropped := by
  unfold admitRecord
  split
  · exact ⟨rfl, rfl⟩
  · split
    · exact ⟨rfl, rfl⟩
    · split <;> exact ⟨rfl, rfl⟩

theorem admitMessage_queue (s : State) :
    (admitMessage s).rpu.queue = s.rpu.queue ∧ (admitMessage s).rpu.dropped = s.rpu.dropped := by
  unfold admitMessage
  split
  · exact ⟨rfl, rfl⟩
  · split
    · split <;> exact ⟨rfl, rfl⟩
    · exact ⟨rfl, rfl⟩

theorem sauRestart_reportQueueInv {s : State} (h : ReportQueueInv s) : ReportQueueInv (sauRestart s) :=
  have k := reportQueueInv_keptByReports
  setSau_reportQueueInv _ (k.followConditions _ (k.deliver _ _ _ (k.deliver _ _ _ (setSau_reportQueueInv _ h))))

theorem clearFolding_reportQueueInv {s : State} (h : ReportQueueInv s) : ReportQueueInv (clearFolding s) :=
  h.congr rfl rfl

theorem setPfl_reportQueueInv {s : State} (f : Pfl) (h : ReportQueueInv s) : ReportQueueInv (s.setPfl f) :=
  reportQueueInv_blind (within_pfl (by decide) s f) h

theorem activate_reportQueueInv {n : BitVec 2} {p : Profile} {r : Option (BitVec 2)} {s : State}
    (h : ReportQueueInv s) : ReportQueueInv (activate n p r s) := by
  refine sauRestart_reportQueueInv (clearFolding_reportQueueInv (reportQueueInv_keptByReports.setFrt _ _ ?_))
  exact reportQueueInv_keptByReports.byRules.restartBlocks p _ (setPfl_reportQueueInv _ h)

theorem reportQueueInv_keptByLoads : KeptByLoads ReportQueueInv where
  setPfl _ f _ := setPfl_reportQueueInv f
  setEgu s v := reportQueueInv_blind (within_egu (by decide) s v)
  activate _ _ _ _ _ := activate_reportQueueInv
  restartBlocks := reportQueueInv_keptByReports.byRules.restartBlocks
  clearFolding _ := clearFolding_reportQueueInv
  deliver := reportQueueInv_keptByReports.deliver
  raiseReport := reportQueueInv_keptByReports.raiseReport

theorem reportQueueInv_kept :
    Kept [.inReset, .pins, .wpu, .mkt, .tgn, .lnb, .frt, .egu, .sau, .pfl, .pending] ReportQueueInv :=
  have k := reportQueueInv_keptByReports.byRules
  { blind := reportQueueInv_blind
    takeQualifies := .inr k.takeQualifies
    takeWindow := .inr k.takeWindow
    takeLatency := .inr k.takeLatency
    takeFire := .inr k.takeFire
    takeStall := .inr k.takeStall
    takeFence := .inr k.takeFence
    takeInterval := .inr fun _ => takeInterval_reportQueueInv
    takeBlockEnd := .inr fun _ => takeBlockEnd_reportQueueInv
    takeStatus := .inr fun _ => takeStatus_reportQueueInv
    formReportGroup := .inr fun _ => formReportGroup_reportQueueInv
    resetBlocks := fun _ _ _ => ⟨Nat.zero_le _, List.Pairwise.nil, Nat.zero_le _⟩
    observePair := .inr fun q s _ => k.observePair q s
    admitPiece := .inr fun s _ => k.admitPiece s
    admitRecord := .inr fun s _ h => h.congr (admitRecord_queue s).1 (admitRecord_queue s).2
    admitMessage := .inr fun s _ h => h.congr (admitMessage_queue s).1 (admitMessage_queue s).2
    linkReset := .inr fun s _ => k.linkReset s
    sampleClear := .inr fun a s _ => k.sampleClear a s
    takeReadEnd := .inr fun b r s _ => reportQueueInv_keptByLoads.takeReadEnd b r s }

/-! ## The ALERT line -/

theorem alertInv_blind {s t : State}
    (w : Within [.inReset, .pins, .wpu, .mkt, .tgn, .lnb, .frt, .egu, .rpu, .pending] s t) (h : AlertInv s) : AlertInv t :=
  h.congr (by rw [w.sau (by decide)]) (by rw [w.sau (by decide)]) (w.profile (by decide))

/-- What leaves the SAU and the active profile keeps the law of ALERT. -/
theorem AlertInv.of_within {s t : State} (h : AlertInv s)
    (w : Within [.inReset, .pins, .wpu, .mkt, .tgn, .lnb, .frt, .egu, .rpu, .pfl, .pending] s t)
    (ha : t.pfl.active = s.pfl.active) : AlertInv t :=
  h.congr (by rw [w.sau (by decide)]) (by rw [w.sau (by decide)]) (by rw [State.profile, State.profile, ha])

theorem alertInv_keptByReports : KeptByReports AlertInv where
  blind w := alertInv_blind (w.mono (by decide))
  raiseReport _ _ := raiseReport_alertInv
  raiseFlag _ _ := raiseFlag_alertInv
  deliver _ _ _ := deliver_alertInv
  unfence _ := deliver_alertInv
  countClosure p s := alertInv_blind
    (.ite (fun _ => within_rpu (by decide) ..) fun _ =>
      .ite (fun _ => within_rpu (by decide) ..) fun _ => within_rpu (by decide) ..)
  dropLinks s := alertInv_blind ((dropLinks_within s).mono (by decide))
  dropRecord s h := raiseReportsDropped_alertInv (alertInv_blind (within_rpu (by decide) s _) h)
  countAdvance _ h := by
    unfold countAdvance
    split
    · exact h.congr rfl rfl rfl
    · exact h
  setClearRef _ _ h := h.congr rfl rfl rfl
  clearFlags _ _ := evalAlert_alertInv _

theorem takeInterval_alertInv {s : State} (h : AlertInv s) : AlertInv (takeInterval s) := by
  refine withProfile_cases h fun p _ => ?_
  dsimp only
  split
  · split
    · exact h.congr rfl rfl rfl
    · exact alertInv_keptByReports.compareSpeed _ _ _ (h.congr rfl rfl rfl)
  · exact h

theorem takeBlockEnd_alertInv {s : State} (h : AlertInv s) : AlertInv (takeBlockEnd s) := by
  refine withProfile_cases h fun p _ => ?_
  dsimp only
  split
  · split
    · exact alertInv_keptByReports.compareSpeed _ _ _ (h.congr rfl rfl rfl)
    · exact h.congr rfl rfl rfl
  · exact h

theorem takeStatus_alertInv {s : State} (h : AlertInv s) : AlertInv (takeStatus s) := by
  unfold takeStatus
  split
  · exact h
  · exact raiseReport_alertInv (h.congr rfl rfl rfl)

theorem formReportGroup_alertInv {s : State} (h : AlertInv s) : AlertInv (formReportGroup s) := by
  unfold formReportGroup
  split
  · split
    · exact h.congr rfl rfl rfl
    · exact h
  · exact h

theorem alertInv_keptByLoads : KeptByLoads AlertInv where
  setPfl s f hf h := h.of_within (within_pfl (by decide) s f) hf
  setEgu s v := alertInv_blind (within_egu (by decide) s v)
  activate _ _ _ _ _ _ := evalAlert_alertInv _
  restartBlocks := alertInv_keptByReports.byRules.restartBlocks
  clearFolding s := alertInv_blind (within_rpu (by decide) s _)
  deliver := alertInv_keptByReports.deliver
  raiseReport := alertInv_keptByReports.raiseReport

theorem alertInv_kept : Kept [.inReset, .pins, .wpu, .mkt, .tgn, .lnb, .frt, .egu, .rpu, .pending] AlertInv :=
  have k := alertInv_keptByReports.byRules
  { blind := alertInv_blind
    takeQualifies := .inr k.takeQualifies
    takeWindow := .inr k.takeWindow
    takeLatency := .inr k.takeLatency
    takeFire := .inr k.takeFire
    takeStall := .inr k.takeStall
    takeFence := .inr k.takeFence
    takeInterval := .inr fun _ => takeInterval_alertInv
    takeBlockEnd := .inr fun _ => takeBlockEnd_alertInv
    takeDebounce := .inr fun s h => h.of_within ((takeDebounce_within s).mono (by decide)) (takeDebounce_active s)
    takeStatus := .inr fun _ => takeStatus_alertInv
    takeDrainEnd := .inr fun s h => h.of_within ((takeDrainEnd_within s).mono (by decide)) (takeDrainEnd_active s)
    takeGrant := .inr fun s h => h.of_within ((takeGrant_within s).mono (by decide)) (takeGrant_active s)
    takeLoadingStart := .inr fun s h =>
      h.of_within ((takeLoadingStart_within s).mono (by decide)) (takeLoadingStart_active s)
    formReportGroup := .inr fun _ => formReportGroup_alertInv
    resetBlocks := fun _ _ _ => rfl
    endReset := .inr fun s h => h.of_within ((endReset_within s).mono (by decide)) (endReset_active s)
    observePair := .inr fun q s _ => k.observePair q s
    admitPiece := .inr fun s _ => k.admitPiece s
    linkReset := .inr fun s _ => k.linkReset s
    sampleClear := .inr fun a s _ => k.sampleClear a s
    observePsel := .inr fun v s _ h => h.of_within ((observePsel_within v s).mono (by decide)) (observePsel_active v s)
    assertSreq := .inr fun s _ h => h.of_within ((assertSreq_within s).mono (by decide)) (assertSreq_active s)
    releaseSreq := .inr fun s _ h => h.of_within ((releaseSreq_within s).mono (by decide)) (releaseSreq_active s)
    takeReadEnd := .inr fun b r s _ => alertInv_keptByLoads.takeReadEnd b r s }

/-- Settles O57: reports join the queue by priority alone, and every change of a flag or of the mask evaluates ALERT. -/
theorem stepKeepsReportsAndAlert : Obligations.StepKeepsReportsAndAlert :=
  ⟨reportQueueInv_kept.step, alertInv_kept.step⟩

end Sys2Proof.Machine
end

section
/-! SUPPORT. How many writes a placement gives (R81 to R90): pieces of at most 4,096 bytes give at most two. -/

namespace Sys2Proof.Machine

/-! ## The cut at page boundaries -/

/-- From a page boundary on a page holds 4,096 bytes. -/
theorem room_at_boundary (a : Nat) :
    Config.pageBytes - (a + (Config.pageBytes - a % Config.pageBytes)) % Config.pageBytes = Config.pageBytes := by
  unfold Config.pageBytes
  omega

theorem cutPages_of_room {n a : Nat} {data : List Byte} (h : data.length ≤ Config.pageBytes - a % Config.pageBytes) :
    cutPages n a data = [{ addr := addr64 a, data := data }] := by
  cases n with
  | zero => rfl
  | succ n => exact if_pos h

/-- At most one boundary lies strictly inside 4,096 bytes (R90). -/
theorem cutPages_length_le_two (n a : Nat) {data : List Byte} (h : data.length ≤ Config.pageBytes) :
    (cutPages n a data).length ≤ 2 := by
  cases n with
  | zero => exact one_le_two
  | succ n =>
    unfold cutPages
    dsimp only
    split
    · exact one_le_two
    · rw [cutPages_of_room]
      · rfl
      · rw [room_at_boundary, List.length_drop]
        exact (Nat.sub_le ..).trans h

/-! ## The bytes of a placement's output -/

/-- The pixels of a run hold a byte or more each. -/
def PixelRun.NonEmpty (r : PixelRun) : Prop := ∀ px ∈ r.pixels, px ≠ []

theorem pairUp_flatten_length (l : List Byte) :
    (pairUp l).1.flatten.length ≤ l.length ∧ ∀ px ∈ (pairUp l).1, px ≠ [] := by
  induction l using pairUp.induct with
  | case1 => exact ⟨Nat.le_refl _, nofun⟩
  | case2 => exact ⟨Nat.zero_le _, nofun⟩
  | case3 l h rest ih =>
    obtain ⟨shorter, nonEmpty⟩ := ih
    simp only [pairUp, List.flatten_cons, List.length_append, List.length_cons, List.length_nil]
    refine ⟨by omega, fun px hpx => ?_⟩
    rcases List.mem_cons.1 hpx with rfl | hpx
    · exact List.cons_ne_nil _ _
    · exact nonEmpty px hpx

/-- The pixels of a sub-piece hold no more bytes than it has, and a byte or more each (R81, R82). -/
theorem toPixels_flatten_length (q : ChanProfile) (b : Nat) (data : List Byte) :
    (q.toPixels b data).1.pixels.flatten.length ≤ data.length ∧ (q.toPixels b data).1.NonEmpty := by
  have taken := List.length_take_le' (q.pixelBytes - b) data
  have paired := pairUp_flatten_length (data.take (q.pixelBytes - b))
  unfold ChanProfile.toPixels PixelRun.NonEmpty
  dsimp only
  split
  case isTrue =>
    refine ⟨by simp [Function.comp_def], fun px hpx => ?_⟩
    obtain ⟨x, -, rfl⟩ := List.mem_map.1 hpx
    exact List.cons_ne_nil _ _
  case isFalse =>
    split
    case isFalse => exact ⟨paired.1.trans taken, paired.2⟩
    case isTrue =>
      split
      case h_1 => exact ⟨Nat.zero_le _, nofun⟩
      case h_2 x rest hd =>
        rw [hd, List.length_cons] at taken
        have rest := pairUp_flatten_length rest
        exact ⟨rest.1.trans (Nat.le_of_succ_le taken), rest.2⟩

theorem trim_sublist (q : ChanProfile) (r : PixelRun) : (q.trim r).pixels.Sublist r.pixels :=
  (List.drop_sublist ..).trans (List.take_sublist ..)

theorem ordered_perm (q : ChanProfile) (r : PixelRun) : (q.ordered r).Perm r.pixels := by
  unfold ChanProfile.ordered
  split
  · exact List.reverse_perm _
  · exact .refl _

/-- No pixel grows by its conversion (R85, R86). -/
theorem convert_length_le (q : ChanProfile) {px : List Byte} (h : px ≠ []) : (q.convert px).length ≤ px.length := by
  unfold ChanProfile.convert
  split
  · exact Nat.le_refl _
  · exact List.length_reverse.le
  · exact List.length_pos_iff.2 h

theorem convert_flatten_length_le (q : ChanProfile) {l : List (List Byte)} (h : ∀ px ∈ l, px ≠ []) :
    ((l.map q.convert).flatten).length ≤ l.flatten.length := by
  induction l with
  | nil => exact Nat.le_refl _
  | cons px l ih =>
    rw [List.forall_mem_cons] at h
    simp only [List.map_cons, List.flatten_cons, List.length_append]
    exact Nat.add_le_add (convert_length_le q h.1) (ih h.2)

/-- A placement's output is no longer than the sub-piece. -/
theorem output_length_le (q : ChanProfile) (b : Nat) (data : List Byte) :
    (((q.ordered (q.trim (q.toPixels b data).1)).map q.convert).flatten).length ≤ data.length := by
  obtain ⟨shorter, nonEmpty⟩ := toPixels_flatten_length q b data
  have kept := trim_sublist q (q.toPixels b data).1
  have perm := ordered_perm q (q.trim (q.toPixels b data).1)
  calc _ ≤ (q.ordered (q.trim (q.toPixels b data).1)).flatten.length :=
        convert_flatten_length_le q fun px hpx => nonEmpty px (kept.subset (perm.subset hpx))
    _ = (q.trim (q.toPixels b data).1).pixels.flatten.length := perm.flatten.length_eq
    _ ≤ (q.toPixels b data).1.pixels.flatten.length := kept.flatten.length_le
    _ ≤ data.length := shorter

theorem placeSubPiece_length_le_two (p : Profile) (q : ChanProfile) (slot row b : Nat) {data : List Byte}
    (h : data.length ≤ Config.pageBytes) : (placeSubPiece p q slot row b data).1.length ≤ 2 := by
  unfold placeSubPiece
  dsimp only
  split
  · exact Nat.zero_le _
  · exact cutPages_length_le_two _ _ ((output_length_le q b data).trans h)

theorem accept_length_le (n : Line) (b : Nat) (valid : List Byte) : (n.accept b valid).2.2.length ≤ valid.length := by
  unfold Line.accept
  dsimp only
  split
  · exact Nat.zero_le _
  · exact List.length_drop.trans_le (Nat.sub_le ..)

theorem takeBytes_length_le_two (p : Profile) (c : Ch) (b : Nat) (s : State) {valid : List Byte}
    (h : valid.length ≤ Config.pageBytes) : (takeBytes p c b valid s).2.length ≤ 2 := by
  unfold takeBytes
  dsimp only
  split
  case h_1 => exact Nat.zero_le _
  case h_2 n _ =>
    dsimp only
    split
    · exact placeSubPiece_length_le_two _ _ _ _ _ ((accept_length_le n b valid).trans h)
    · exact Nat.zero_le _

/-- A piece of at most 4,096 bytes gives at most two output writes. -/
theorem handlePiece_length_le_two (p : Profile) (c : Ch) (o : Nat) (s : State) {data : List Byte}
    (h : data.length ≤ Config.pageBytes) : (handlePiece p c o data s).2.length ≤ 2 := by
  have valid (n : Nat) : (data.take n).length ≤ Config.pageBytes := (List.length_take_le' n data).trans h
  unfold handlePiece
  dsimp only
  split
  · exact Nat.zero_le _
  · split
    · exact Nat.zero_le _
    · exact takeBytes_length_le_two _ _ _ _ (valid _)
    · exact takeBytes_length_le_two _ _ _ _ (valid _)

end Sys2Proof.Machine
end

section
/-! SUPPORT. The Egress Unit and the loader through the operations (R125 to R137, R165 to R174). -/

namespace Sys2Proof.Machine

/-! ## The loader and the EGU at the end of a load -/

theorem restartBlocks_pfl (p : Profile) (s : State) : (restartBlocks p s).pfl = s.pfl :=
  (restartBlocks_within p s).pfl (by decide)

theorem sauRestart_pfl (s : State) : (sauRestart s).pfl = s.pfl := (sauRestart_within s).pfl (by decide)

theorem activate_pfl (n : BitVec 2) (p : Profile) (r : Option (BitVec 2)) (s : State) :
    (activate n p r s).pfl =
      { s.pfl with active := some { number := n, prof := p }, target := none, refused := r, loader := .running,
                   staging := none } := by
  unfold activate
  rw [sauRestart_pfl, (clearFolding_within _).pfl (by decide)]
  exact restartBlocks_pfl p _

theorem activate_egu (n : BitVec 2) (p : Profile) (r : Option (BitVec 2)) (s : State) :
    (activate n p r s).egu = s.egu := by
  unfold activate
  rw [(sauRestart_within _).egu (by decide), (clearFolding_within _).egu (by decide)]
  exact (restartBlocks_within p _).egu (by decide)

theorem enterFallback_egu (s : State) : (enterFallback s).egu = s.egu := by
  unfold enterFallback
  rw [(testRequest_within _).egu (by decide), (deliver_within ..).egu (by decide), State.setPfl_egu]

theorem loadAccepted_egu (n : BitVec 2) (p : Profile) (s : State) : (loadAccepted n p s).egu = s.egu := by
  unfold loadAccepted
  rw [(testRequest_within _).egu (by decide), (raiseReport_within ..).egu (by decide)]
  split
  · rw [(deliver_within ..).egu (by decide), activate_egu]
  · exact activate_egu ..

theorem loadRefused_egu (n : BitVec 2) (why : Reason) (s : State) : (loadRefused n why s).egu = s.egu := by
  unfold loadRefused
  dsimp only
  split
  · rw [enterFallback_egu, State.setPfl_egu]
  · rw [(testRequest_within _).egu (by decide), (raiseReport_within ..).egu (by decide),
      (clearFolding_within _).egu (by decide), (restartBlocks_within ..).egu (by decide), State.setPfl_egu]

theorem finishLoad_egu (n : BitVec 2) (s : State) : (finishLoad n s).egu = s.egu := by
  unfold finishLoad
  dsimp only
  split
  · rfl
  · split
    · rw [loadAccepted_egu, State.setPfl_egu]
    · rw [loadRefused_egu, State.setPfl_egu]

/-! ## Whether the loader is in LOADING_INITIAL -/

/-- The loader is in LOADING_INITIAL. -/
def State.startingUp (s : State) : Prop := s.pfl.loader = .loadingInitial

theorem testRequest_startingUp (s : State) : (testRequest s).startingUp ↔ s.startingUp := by
  unfold testRequest State.startingUp
  dsimp only
  split
  case h_1 hl => split <;> simp [hl]
  case h_2 hl => split <;> simp [hl]
  case h_3 hl => split_ifs <;> simp [hl]
  all_goals exact Iff.rfl

theorem takeDebounce_startingUp (s : State) : (takeDebounce s).startingUp ↔ s.startingUp := by
  unfold takeDebounce
  split
  · exact testRequest_startingUp _
  · exact Iff.rfl

theorem takeDrainEnd_startingUp (s : State) : (takeDrainEnd s).startingUp ↔ s.startingUp := by
  unfold takeDrainEnd
  split
  case isTrue hd =>
    have draining : s.pfl.loader = .draining := by
      simp only [State.drainDue, Bool.and_eq_true, beq_iff_eq] at hd
      exact hd.left.left
    simp [State.startingUp, draining]
  case isFalse => exact Iff.rfl

theorem takeGrant_startingUp (s : State) : (takeGrant s).startingUp ↔ s.startingUp := by
  unfold takeGrant
  split <;> exact Iff.rfl

theorem takeLoadingStart_startingUp (s : State) : (takeLoadingStart s).startingUp ↔ s.startingUp := by
  unfold takeLoadingStart
  split
  case isTrue hd =>
    have awaiting : s.pfl.loader = .awaitingStore := by
      simp only [State.loadDue, Bool.and_eq_true, beq_iff_eq] at hd
      exact hd.right
    simp [State.startingUp, awaiting]
  case isFalse => exact Iff.rfl

theorem observePsel_startingUp (v : BitVec 2) (s : State) : (observePsel v s).startingUp ↔ s.startingUp := by
  unfold observePsel
  split <;> exact Iff.rfl

theorem assertSreq_startingUp (s : State) : (assertSreq s).startingUp ↔ s.startingUp := by
  unfold assertSreq
  dsimp only
  split
  · exact Iff.rfl
  · split <;> exact Iff.rfl

theorem releaseSreq_startingUp (s : State) : (releaseSreq s).startingUp ↔ s.startingUp := by
  unfold releaseSreq
  dsimp only
  split
  · split <;> exact Iff.rfl
  · exact Iff.rfl

theorem endReset_startingUp (s : State) : (endReset s).startingUp ↔ s.startingUp := by
  unfold endReset
  split <;> exact Iff.rfl

theorem activate_not_startingUp (n : BitVec 2) (p : Profile) (r : Option (BitVec 2)) (s : State) :
    ¬(activate n p r s).startingUp := by
  unfold State.startingUp
  rw [activate_pfl]
  simp

theorem enterFallback_not_startingUp (s : State) : ¬(enterFallback s).startingUp := by
  unfold enterFallback
  rw [testRequest_startingUp, State.startingUp, (deliver_within ..).pfl (by decide), State.setPfl_pfl]
  simp

theorem loadAccepted_not_startingUp (n : BitVec 2) (p : Profile) (s : State) : ¬(loadAccepted n p s).startingUp := by
  unfold loadAccepted
  rw [testRequest_startingUp, State.startingUp, (raiseReport_within ..).pfl (by decide)]
  split
  · rw [(deliver_within ..).pfl (by decide)]
    exact activate_not_startingUp _ _ _ _
  · exact activate_not_startingUp _ _ _ _

theorem loadRefused_not_startingUp (n : BitVec 2) (why : Reason) (s : State) : ¬(loadRefused n why s).startingUp := by
  unfold loadRefused
  dsimp only
  split
  · exact enterFallback_not_startingUp _
  · rw [testRequest_startingUp, State.startingUp, (raiseReport_within ..).pfl (by decide),
      (clearFolding_within _).pfl (by decide), restartBlocks_pfl, State.setPfl_pfl]
    simp

theorem finishLoad_not_startingUp (n : BitVec 2) (s : State) (h : ¬s.startingUp) : ¬(finishLoad n s).startingUp := by
  unfold finishLoad
  dsimp only
  split
  · exact h
  · split
    · exact loadAccepted_not_startingUp _ _ _
    · exact loadRefused_not_startingUp _ _ _

/-! ## The capacities of the queues -/

theorem egressInv_blind {s t : State}
    (w : Within [.inReset, .pins, .wpu, .mkt, .tgn, .lnb, .frt, .rpu, .sau, .pfl, .pending] s t) (h : EgressInv s) :
    EgressInv t := by
  unfold EgressInv
  rw [w.egu (by decide)]
  exact h

theorem refreshFlow_egressInv {s : State} (h : EgressInv s) : EgressInv (refreshFlow s) := h

/-- Entries that find room join the queue. -/
theorem pushEgress_egressInv {s : State} {es : List Egress} (h : EgressInv s) (room : es.length ≤ s.freeEntries) :
    EgressInv (pushEgress es s) := by
  obtain ⟨egress, downstream, ingress⟩ := h
  refine ⟨?_, downstream, ingress⟩
  unfold State.freeEntries at room
  simp only [pushEgress, List.length_append]
  omega

/-- The request in progress is replaced by one that holds no more than a page. -/
theorem setIngress_egressInv {s : State} {i : Option Ingress} {flow : Bool} (h : EgressInv s)
    (hi : ∀ g, i = some g → g.data.length ≤ Config.pageBytes) :
    EgressInv { s with egu := { s.egu with ingress := i, flowOpen := flow } } := by
  obtain ⟨egress, downstream, -⟩ := h
  exact ⟨egress, downstream, hi⟩

theorem Ingress.after_length {g h : Ingress} {n : Nat} (e : g.after n = some h) : h.data.length ≤ g.data.length := by
  unfold Ingress.after at e
  split_ifs at e
  cases e
  exact List.length_drop.trans_le (Nat.sub_le ..)

/-- A grabber's request holds no more bytes than a page (R123). -/
theorem fromGrabber_length {r : Request} (h : r.fromGrabber = true) : r.data.length ≤ Config.pageBytes := by
  simp only [Request.fromGrabber, Bool.and_eq_true, decide_eq_true_eq] at h
  obtain ⟨⟨-, bound⟩, shape⟩ := h
  split at shape
  · simp only [Bool.and_eq_true, decide_eq_true_eq] at shape
    omega
  · simp only [decide_eq_true_eq] at shape
    simp [shape]
  · exact (of_decide_eq_true shape).trans bound
  · exact (of_decide_eq_true shape).trans bound
  · cases shape

/-- What the ingress's grant says (R126). -/
theorem ingressGrant_eq_some {s : State} {g : Ingress} (h : s.ingressGrant = some g) :
    s.egu.hostUp = true ∧ s.frt.writeList = [] ∧ s.rpu.writer = none ∧ 2 ≤ s.freeEntries ∧ s.egu.ingress = some g := by
  unfold State.ingressGrant at h
  split_ifs at h with granted
  simp only [Bool.and_eq_true, decide_eq_true_eq, List.isEmpty_iff, Option.isNone_iff_eq_none] at granted
  obtain ⟨⟨⟨up, empty⟩, idle⟩, room⟩ := granted
  exact ⟨up, empty, idle, room, h⟩

theorem frameGrant_eq_some {s : State} {i : FrameItem} (h : s.frameGrant = some i) :
    s.egu.hostUp = true ∧ i.writes.length ≤ s.freeEntries ∧ ∃ rest, s.frt.writeList = i :: rest := by
  unfold State.frameGrant at h
  split at h
  · cases h
  · split_ifs at h with granted
    cases h
    simp only [Bool.and_eq_true, decide_eq_true_eq] at granted
    exact ⟨granted.1, granted.2, _, ‹_›⟩

theorem reportGrant_iff (s : State) :
    s.reportGrant = true ↔ s.egu.hostUp = true ∧ s.frt.writeList = [] ∧ 1 ≤ s.freeEntries := by
  simp [State.reportGrant, and_assoc]

theorem acceptRequest_egressInv {r : Request} {s : State} (hr : r.fromGrabber = true) (h : EgressInv s) :
    EgressInv (acceptRequest r s) := by
  unfold acceptRequest
  split
  · refine refreshFlow_egressInv (setIngress_egressInv h fun g hg => ?_)
    cases hg
    exact fromGrabber_length hr
  · exact h

theorem admitPieceOf_egressInv {p : Profile} {g : Ingress} {c : Ch} {o n : Nat} {s : State} (h : EgressInv s)
    (room : 2 ≤ s.freeEntries) (hg : s.egu.ingress = some g) : EgressInv (admitPieceOf p g c o n s) := by
  have bound : g.data.length ≤ Config.pageBytes := by
    obtain ⟨-, -, ingress⟩ := h
    exact ingress g hg
  have writes := handlePiece_length_le_two p c o s ((List.length_take_le' n g.data).trans bound)
  have handled := handlePiece_within p c o (g.data.take n) s
  unfold admitPieceOf
  generalize handlePiece p c o (g.data.take n) s = r at writes handled
  have after : EgressInv r.1 := egressInv_blind (handled.mono (by decide)) h
  refine refreshFlow_egressInv (setIngress_egressInv (pushEgress_egressInv (s := r.1.setLnb c _) after ?_) ?_)
  · have free : (r.1.setLnb c ((r.1.lnb.get c).addBytesOut ((r.2.map (·.data.length)).sum))).freeEntries = s.freeEntries := by
      simp only [State.freeEntries, State.setLnb_egu, handled.egu (by decide)]
    rw [free, List.length_map]
    exact writes.trans room
  · exact fun _ e => (Ingress.after_length e).trans bound

theorem admitPiece_egressInv {s : State} (h : EgressInv s) : EgressInv (admitPiece s) := by
  unfold admitPiece
  split
  case h_1 granted =>
    obtain ⟨-, -, -, room, held⟩ := ingressGrant_eq_some granted
    split
    · exact admitPieceOf_egressInv h room held
    · exact h
  case h_2 => exact h

theorem admitPass_egressInv {s : State} (h : EgressInv s) : EgressInv (admitPass s) := by
  unfold admitPass
  split
  case h_1 => exact h
  case h_2 g granted =>
    obtain ⟨-, -, -, room, held⟩ := ingressGrant_eq_some granted
    split
    · exact h
    · refine refreshFlow_egressInv (setIngress_egressInv (pushEgress_egressInv h ?_) fun _ e => ?_)
      · exact one_le_two.trans room
      · obtain ⟨-, -, ingress⟩ := h
        exact (Ingress.after_length e).trans (ingress g held)

theorem admitFrameItem_egressInv {s : State} (h : EgressInv s) : EgressInv (admitFrameItem s) := by
  unfold admitFrameItem
  split
  case h_1 => exact h
  case h_2 i granted =>
    obtain ⟨-, room, -⟩ := frameGrant_eq_some granted
    refine refreshFlow_egressInv (pushEgress_egressInv (egressInv_blind (within_frt (by decide) s _) h) ?_)
    rw [List.length_map]
    exact room

theorem admitRecord_egressInv {s : State} (h : EgressInv s) : EgressInv (admitRecord s) := by
  unfold admitRecord
  split
  · exact h
  · split
    · exact h
    · split
      case isTrue granted =>
        obtain ⟨-, -, room⟩ := (reportGrant_iff s).1 granted
        exact refreshFlow_egressInv (pushEgress_egressInv (egressInv_blind (within_rpu (by decide) s _) h) room)
      case isFalse => exact h

theorem admitMessage_egressInv {s : State} (h : EgressInv s) : EgressInv (admitMessage s) := by
  unfold admitMessage
  split
  · exact h
  · split
    · split
      case isTrue granted =>
        obtain ⟨-, -, room⟩ := (reportGrant_iff s).1 granted
        exact refreshFlow_egressInv (pushEgress_egressInv (egressInv_blind (within_rpu (by decide) s _) h) room)
      case isFalse => exact h
    · exact h

theorem sendEgress_egressInv {s : State} (h : EgressInv s) : EgressInv (sendEgress s) := by
  obtain ⟨egress, downstream, ingress⟩ := h
  unfold sendEgress
  split
  · exact ⟨(List.length_drop.trans_le (Nat.sub_le ..)).trans egress, downstream, ingress⟩
  · exact ⟨egress, downstream, ingress⟩

theorem takeDownstream_egressInv {r : Request} {s : State} (h : EgressInv s) : EgressInv (takeDownstream r s) := by
  obtain ⟨egress, downstream, ingress⟩ := h
  unfold takeDownstream
  split
  case isTrue room =>
    simp only [Bool.and_eq_true, decide_eq_true_eq] at room
    exact ⟨egress, by rw [List.length_append]; exact room.2, ingress⟩
  case isFalse => exact ⟨egress, downstream, ingress⟩

theorem sendDownstream_egressInv {s : State} (h : EgressInv s) : EgressInv (sendDownstream s) := by
  obtain ⟨egress, downstream, ingress⟩ := h
  unfold sendDownstream
  split
  · exact ⟨egress, (List.length_drop.trans_le (Nat.sub_le ..)).trans downstream, ingress⟩
  · exact ⟨egress, downstream, ingress⟩

theorem releaseGrabber_egressInv {s : State} (h : EgressInv s) : EgressInv (releaseGrabber s) := by
  unfold releaseGrabber
  split <;> exact h

/-- The EGU after a host-link reset is as its own part leaves it (R134). -/
theorem linkReset_egu (s : State) : (linkReset s).egu = (dropLinks s).egu := by
  unfold linkReset
  rw [(forChannels_within (fun c t => channelLinkReset_within c t) _).egu (by decide),
    (flagLinkReset_within _).egu (by decide), (repeatTimes_within dropRecord_within _ _).egu (by decide)]

theorem linkReset_pfl (s : State) : (linkReset s).pfl = s.pfl := (linkReset_within s).pfl (by decide)

theorem dropLinks_egressInv (s : State) : EgressInv (dropLinks s) := ⟨Nat.zero_le _, Nat.zero_le _, nofun⟩

theorem linkReset_egressInv (s : State) : EgressInv (linkReset s) := by
  unfold EgressInv
  rw [linkReset_egu]
  exact dropLinks_egressInv s

theorem grabberTrained_egressInv {s : State} (h : EgressInv s) : EgressInv (grabberTrained s) := by
  unfold grabberTrained
  split <;> exact h

theorem grabberLost_egressInv {s : State} (h : EgressInv s) : EgressInv (grabberLost s) := by
  unfold grabberLost
  split
  · obtain ⟨egress, -, ingress⟩ := h
    exact ⟨egress, Nat.zero_le _, ingress⟩
  · exact h

/-- The EGU at the end of a load, but for the link state and the flow control, is as it was. -/
theorem finishStartUp_egressInv {n : BitVec 2} {s : State} (h : EgressInv s) : EgressInv (finishStartUp n s) := by
  have same {t : State} (e : t.egu = s.egu) : EgressInv t := by
    unfold EgressInv
    rw [e]
    exact h
  have released {t : State} (e : t.egu = s.egu) : EgressInv (refreshFlow (releaseGrabber t)) :=
    refreshFlow_egressInv (releaseGrabber_egressInv (same e))
  unfold finishStartUp
  dsimp only
  split
  · exact h
  · split
    · refine egressInv_blind ((testRequest_within _).mono (by decide)) (released ?_)
      rw [(raiseReport_within ..).egu (by decide), State.setPfl_egu, activate_egu]
    · split
      · exact released (enterFallback_egu _)
      · split
        · exact released (enterFallback_egu _)
        · exact h

theorem takeReadEnd_egressInv {b r : List Byte} {s : State} (h : EgressInv s) : EgressInv (takeReadEnd b r s) := by
  unfold takeReadEnd
  dsimp only
  split
  · exact h
  · split
    · exact finishStartUp_egressInv h
    · unfold EgressInv
      rw [finishLoad_egu]
      exact h
    all_goals exact h

theorem egressInv_kept : Kept [.inReset, .pins, .wpu, .mkt, .tgn, .lnb, .frt, .rpu, .sau, .pfl, .pending] EgressInv where
  blind := egressInv_blind
  resetBlocks _ _ _ := ⟨Nat.zero_le _, Nat.zero_le _, nofun⟩
  acceptRequest := .inr fun _ _ hr _ => acceptRequest_egressInv hr
  admitPiece := .inr fun _ _ => admitPiece_egressInv
  admitPass := .inr fun _ _ => admitPass_egressInv
  admitFrameItem := .inr fun _ _ => admitFrameItem_egressInv
  admitRecord := .inr fun _ _ => admitRecord_egressInv
  admitMessage := .inr fun _ _ => admitMessage_egressInv
  sendEgress := .inr fun _ _ => sendEgress_egressInv
  takeDownstream := .inr fun _ _ _ => takeDownstream_egressInv
  sendDownstream := .inr fun _ _ => sendDownstream_egressInv
  hostLinkUp := .inr fun _ _ h => refreshFlow_egressInv (releaseGrabber_egressInv h)
  linkReset := .inr fun s _ _ => linkReset_egressInv s
  grabberTrained := .inr fun _ _ => grabberTrained_egressInv
  grabberLost := .inr fun _ _ => grabberLost_egressInv
  takeReadEnd := .inr fun _ _ _ _ => takeReadEnd_egressInv

end Sys2Proof.Machine
end

section
/-! The statement of the Egress Unit (sections 7.2, 7.3 and 7.5): the link states and the flow control through the
operations. -/

namespace Sys2Proof.Machine

/-! ## The link states, the flow control apart -/

/-- The clauses of LinkInv that the flow control takes no part in. -/
def Linked (s : State) : Prop :=
  s.egu.grabberRunning = (s.egu.hostUp && s.pfl.loader != .loadingInitial) ∧
    (s.egu.trained = true → s.egu.grabberRunning = true) ∧ (s.egu.hostUp = true → s.egu.hostRisen = true) ∧
    (s.egu.hostUp = false → s.egu.egress = [] ∧ s.egu.ingress = none ∧ s.egu.downstream = [])

theorem LinkInv.linked {s : State} (h : LinkInv s) : Linked s := h.right

/-- Once the flow control is re-evaluated it stands as R128 says. -/
theorem Linked.refreshFlow {s : State} (h : Linked s) : LinkInv (refreshFlow s) := ⟨rfl, h⟩

/-- The laws read of the loader no more than whether it is in LOADING_INITIAL. -/
theorem Linked.congr {s t : State} (h : Linked s) (he : t.egu = s.egu) (hl : t.startingUp ↔ s.startingUp) :
    Linked t := by
  have left : (t.pfl.loader != .loadingInitial) = (s.pfl.loader != .loadingInitial) := by
    rw [Bool.eq_iff_iff, bne_iff_ne, bne_iff_ne]
    exact not_congr hl
  unfold Linked at *
  rwa [he, left]

theorem LinkInv.congr {s t : State} (h : LinkInv s) (he : t.egu = s.egu) (hl : t.startingUp ↔ s.startingUp) :
    LinkInv t := by
  obtain ⟨flow, linked⟩ := h
  refine ⟨?_, Linked.congr linked he hl⟩
  rw [State.flowMayOpen, State.freeEntries, he]
  exact flow

theorem linkInv_blind {s t : State}
    (w : Within [.inReset, .pins, .wpu, .mkt, .tgn, .lnb, .frt, .rpu, .sau, .pending] s t) (h : LinkInv s) : LinkInv t :=
  h.congr (w.egu (by decide)) (by rw [State.startingUp, w.pfl (by decide)]; exact Iff.rfl)

theorem LinkInv.of_loader {s t : State} (h : LinkInv s)
    (w : Within [.inReset, .pins, .wpu, .mkt, .tgn, .lnb, .frt, .rpu, .sau, .pfl, .pending] s t)
    (hl : t.startingUp ↔ s.startingUp) : LinkInv t := h.congr (w.egu (by decide)) hl

/-- While the host link is UP the queues and the ingress are free to change. -/
theorem Linked.of_up {s t : State} (h : Linked s) (up : s.egu.hostUp = true) (hu : t.egu.hostUp = s.egu.hostUp)
    (hr : t.egu.hostRisen = s.egu.hostRisen) (hg : t.egu.grabberRunning = s.egu.grabberRunning)
    (ht : t.egu.trained = s.egu.trained) (hl : t.startingUp ↔ s.startingUp) : Linked t := by
  obtain ⟨running, trained, risen, -⟩ :=
    h.congr (t := { s with pfl := t.pfl }) rfl hl
  unfold Linked
  rw [hu, hr, hg, ht]
  exact ⟨running, trained, risen, fun down => absurd (up.symm.trans down) (by decide)⟩

/-- While the host link is UP the queues and the ingress are free to change, and the flow control follows them. -/
theorem LinkInv.refreshFlow_of_up {s t : State} (h : LinkInv s) (up : s.egu.hostUp = true)
    (hu : t.egu.hostUp = s.egu.hostUp) (hr : t.egu.hostRisen = s.egu.hostRisen)
    (hg : t.egu.grabberRunning = s.egu.grabberRunning) (ht : t.egu.trained = s.egu.trained)
    (hl : t.startingUp ↔ s.startingUp) : LinkInv (Machine.refreshFlow t) :=
  (h.linked.of_up up hu hr hg ht hl).refreshFlow

/-! ## The ingress and the queues -/

theorem LinkInv.up_of_flowOpen {s : State} (h : LinkInv s) (open_ : s.egu.flowOpen = true) : s.egu.hostUp = true := by
  obtain ⟨flow, running, -⟩ := h
  have mayOpen : s.flowMayOpen = true := flow ▸ open_
  simp only [State.flowMayOpen, Bool.and_eq_true] at mayOpen
  obtain ⟨⟨-, grabber⟩, -⟩ := mayOpen
  rw [grabber, eq_comm, Bool.and_eq_true] at running
  exact running.left

theorem acceptRequest_linkInv {r : Request} {s : State} (h : LinkInv s) : LinkInv (acceptRequest r s) := by
  unfold acceptRequest
  split
  case isTrue accepted =>
    rw [Bool.and_eq_true] at accepted
    exact h.refreshFlow_of_up (h.up_of_flowOpen accepted.right) rfl rfl rfl rfl Iff.rfl
  case isFalse => exact h

theorem admitPieceOf_linkInv {p : Profile} {g : Ingress} {c : Ch} {o n : Nat} {s : State} (h : LinkInv s)
    (up : s.egu.hostUp = true) : LinkInv (admitPieceOf p g c o n s) := by
  have handled := handlePiece_within p c o (g.data.take n) s
  unfold admitPieceOf
  generalize handlePiece p c o (g.data.take n) s = r at handled
  have egu : r.1.egu = s.egu := handled.egu (by decide)
  have pfl : r.1.pfl = s.pfl := handled.pfl (by decide)
  refine h.refreshFlow_of_up up ?_ ?_ ?_ ?_ ?_
  case refine_5 => exact (by rw [State.startingUp, State.startingUp, ← pfl]; rfl)
  all_goals exact (by rw [← egu]; rfl)

theorem admitPiece_linkInv {s : State} (h : LinkInv s) : LinkInv (admitPiece s) := by
  unfold admitPiece
  split
  case h_1 granted =>
    obtain ⟨up, -⟩ := ingressGrant_eq_some granted
    split
    · exact admitPieceOf_linkInv h up
    · exact h
  case h_2 => exact h

theorem admitPass_linkInv {s : State} (h : LinkInv s) : LinkInv (admitPass s) := by
  unfold admitPass
  split
  case h_1 => exact h
  case h_2 granted =>
    obtain ⟨up, -⟩ := ingressGrant_eq_some granted
    split
    · exact h
    · exact h.refreshFlow_of_up up rfl rfl rfl rfl Iff.rfl

theorem admitFrameItem_linkInv {s : State} (h : LinkInv s) : LinkInv (admitFrameItem s) := by
  unfold admitFrameItem
  split
  case h_1 => exact h
  case h_2 granted =>
    obtain ⟨up, -⟩ := frameGrant_eq_some granted
    exact h.refreshFlow_of_up up rfl rfl rfl rfl Iff.rfl

theorem admitRecord_linkInv {s : State} (h : LinkInv s) : LinkInv (admitRecord s) := by
  unfold admitRecord
  split
  · exact h
  · split
    · exact h
    · split
      case isTrue granted =>
        exact h.refreshFlow_of_up ((reportGrant_iff s).1 granted).left rfl rfl rfl rfl Iff.rfl
      case isFalse => exact h

theorem admitMessage_linkInv {s : State} (h : LinkInv s) : LinkInv (admitMessage s) := by
  unfold admitMessage
  split
  · exact h
  · split
    · split
      case isTrue granted =>
        exact h.refreshFlow_of_up ((reportGrant_iff s).1 granted).left rfl rfl rfl rfl Iff.rfl
      case isFalse => exact h
    · exact h

theorem sendEgress_linkInv {s : State} (h : LinkInv s) : LinkInv (sendEgress s) := by
  unfold sendEgress
  split
  case isTrue up => exact h.refreshFlow_of_up up rfl rfl rfl rfl Iff.rfl
  case isFalse => exact h

/-- The downstream queue takes no part in the flow control. -/
theorem setDownstream_linkInv {s : State} {q : List Request} (h : LinkInv s)
    (hq : s.egu.hostUp = false → q = []) : LinkInv { s with egu := { s.egu with downstream := q } } := by
  obtain ⟨flow, running, trained, risen, down⟩ := h
  refine ⟨flow, running, trained, risen, fun low => ?_⟩
  obtain ⟨egress, ingress, -⟩ := down low
  exact ⟨egress, ingress, hq low⟩

theorem takeDownstream_linkInv {r : Request} {s : State} (h : LinkInv s) : LinkInv (takeDownstream r s) := by
  unfold takeDownstream
  split
  case isTrue room =>
    rw [Bool.and_eq_true] at room
    exact setDownstream_linkInv h fun low => absurd (room.left.symm.trans low) (by decide)
  case isFalse => exact h

theorem sendDownstream_linkInv {s : State} (h : LinkInv s) : LinkInv (sendDownstream s) := by
  unfold sendDownstream
  split
  · refine setDownstream_linkInv h fun low => ?_
    obtain ⟨-, -, -, -, down⟩ := h
    rw [(down low).2.2, List.drop_nil]
  · exact h

/-! ## The links -/

/-- The grabber link is released by the states that R133 names. -/
theorem releaseGrabber_linked {s : State} (started : ¬s.startingUp → s.egu.hostUp = false → s.egu.grabberRunning = false)
    (starting : s.startingUp → s.egu.grabberRunning = false) (trained : s.egu.trained = true → s.egu.grabberRunning = true)
    (risen : s.egu.hostUp = true → s.egu.hostRisen = true)
    (down : s.egu.hostUp = false → s.egu.egress = [] ∧ s.egu.ingress = none ∧ s.egu.downstream = []) :
    Linked (releaseGrabber s) := by
  unfold releaseGrabber
  split
  case isTrue up =>
    rw [Bool.and_eq_true] at up
    exact ⟨by simp [up.left, up.right], fun _ => rfl, risen, down⟩
  case isFalse up =>
    refine ⟨?_, trained, risen, down⟩
    by_cases initial : s.startingUp
    · have loader : (s.pfl.loader != .loadingInitial) = false := by simpa [State.startingUp] using initial
      rw [starting initial, loader, Bool.and_false]
    · have low : s.egu.hostUp = false := by
        rw [Bool.and_eq_true, not_and, bne_iff_ne] at up
        exact Bool.eq_false_iff.2 fun high => up high initial
      rw [started initial low, low, Bool.false_and]

theorem hostLinkUp_linkInv {s : State} (h : LinkInv s) : LinkInv (hostLinkUp s) := by
  obtain ⟨-, running, trained, -, -⟩ := h
  refine Linked.refreshFlow (releaseGrabber_linked (fun _ low => ?_) (fun initial => ?_) trained (fun _ => rfl)
    fun low => ?_)
  · cases low
  · have loader : s.pfl.loader = .loadingInitial := initial
    simpa [loader] using running
  · cases low

theorem linkReset_linkInv (s : State) : LinkInv (linkReset s) := by
  refine LinkInv.congr (s := dropLinks s) ?_ (linkReset_egu s) (by rw [State.startingUp, linkReset_pfl]; exact Iff.rfl)
  exact ⟨rfl, rfl, nofun, nofun, fun _ => ⟨rfl, rfl, rfl⟩⟩

theorem grabberTrained_linkInv {s : State} (h : LinkInv s) : LinkInv (grabberTrained s) := by
  unfold grabberTrained
  split
  case isTrue up =>
    obtain ⟨running, -, risen, down⟩ := h.linked
    exact Linked.refreshFlow ⟨running, fun _ => up, risen, down⟩
  case isFalse => exact h

theorem grabberLost_linkInv {s : State} (h : LinkInv s) : LinkInv (grabberLost s) := by
  unfold grabberLost
  split
  case isTrue up =>
    rw [Bool.and_eq_true] at up
    obtain ⟨running, -, risen, -⟩ := h.linked
    exact Linked.refreshFlow ⟨running, nofun, risen, fun low => absurd (up.left.symm.trans low) (by decide)⟩
  case isFalse => exact h

/-! ## The end of a load -/

/-- Where the loader leaves LOADING_INITIAL the grabber link is released with the host link UP (R133). -/
theorem released_linkInv {s t : State} (h : LinkInv s) (initial : s.startingUp) (he : t.egu = s.egu)
    (left : ¬t.startingUp) : LinkInv (refreshFlow (releaseGrabber t)) := by
  obtain ⟨-, running, trained, risen, down⟩ := h
  have loader : s.pfl.loader = .loadingInitial := initial
  have stopped : s.egu.grabberRunning = false := by simpa [loader] using running
  refine Linked.refreshFlow (releaseGrabber_linked ?_ ?_ ?_ ?_ ?_)
  · exact fun _ _ => he ▸ stopped
  · exact fun again => absurd again left
  · exact he ▸ trained
  · exact he ▸ risen
  · exact he ▸ down

theorem startUpDone_linkInv {n : BitVec 2} {s t : State} (h : LinkInv s) (initial : s.startingUp) (he : t.egu = s.egu)
    (left : ¬t.startingUp) : LinkInv (startUpDone n t) := by
  unfold startUpDone
  refine LinkInv.of_loader (released_linkInv h initial ?_ ?_) ((testRequest_within _).mono (by decide))
    (testRequest_startingUp _)
  · rw [(raiseReport_within ..).egu (by decide), State.setPfl_egu, he]
  · rw [State.startingUp, (raiseReport_within ..).pfl (by decide)]
    exact left

theorem finishStartUp_linkInv {n : BitVec 2} {s : State} (h : LinkInv s) (initial : s.startingUp) :
    LinkInv (finishStartUp n s) := by
  unfold finishStartUp
  dsimp only
  split
  · exact h
  · split
    · exact startUpDone_linkInv h initial (activate_egu ..) (activate_not_startingUp _ _ _ _)
    · split
      · exact released_linkInv h initial (enterFallback_egu _) (enterFallback_not_startingUp _)
      · split
        · exact released_linkInv h initial (enterFallback_egu _) (enterFallback_not_startingUp _)
        · exact h.congr rfl Iff.rfl

theorem takeReadEnd_linkInv {b r : List Byte} {s : State} (h : LinkInv s) : LinkInv (takeReadEnd b r s) := by
  unfold takeReadEnd
  dsimp only
  split
  · exact h
  · split
    case h_1 initial => exact finishStartUp_linkInv (h.congr rfl Iff.rfl) initial
    case h_2 n _ _ loading =>
      have before : ¬s.startingUp := by simp [State.startingUp, loading]
      exact h.congr (finishLoad_egu ..) (iff_of_false (finishLoad_not_startingUp _ _ before) before)
    all_goals exact h

theorem linkInv_kept : Kept [.inReset, .pins, .wpu, .mkt, .tgn, .lnb, .frt, .rpu, .sau, .pending] LinkInv where
  blind := linkInv_blind
  takeDebounce := .inr fun s h => h.of_loader ((takeDebounce_within s).mono (by decide)) (takeDebounce_startingUp s)
  takeDrainEnd := .inr fun s h => h.of_loader ((takeDrainEnd_within s).mono (by decide)) (takeDrainEnd_startingUp s)
  takeGrant := .inr fun s h => h.of_loader ((takeGrant_within s).mono (by decide)) (takeGrant_startingUp s)
  takeLoadingStart := .inr fun s h =>
    h.of_loader ((takeLoadingStart_within s).mono (by decide)) (takeLoadingStart_startingUp s)
  resetBlocks _ _ _ := ⟨rfl, rfl, nofun, nofun, fun _ => ⟨rfl, rfl, rfl⟩⟩
  endReset := .inr fun s h => h.of_loader ((endReset_within s).mono (by decide)) (endReset_startingUp s)
  acceptRequest := .inr fun _ _ _ _ => acceptRequest_linkInv
  admitPiece := .inr fun _ _ => admitPiece_linkInv
  admitPass := .inr fun _ _ => admitPass_linkInv
  admitFrameItem := .inr fun _ _ => admitFrameItem_linkInv
  admitRecord := .inr fun _ _ => admitRecord_linkInv
  admitMessage := .inr fun _ _ => admitMessage_linkInv
  sendEgress := .inr fun _ _ => sendEgress_linkInv
  takeDownstream := .inr fun _ _ _ => takeDownstream_linkInv
  sendDownstream := .inr fun _ _ => sendDownstream_linkInv
  hostLinkUp := .inr fun _ _ => hostLinkUp_linkInv
  linkReset := .inr fun s _ _ => linkReset_linkInv s
  grabberTrained := .inr fun _ _ => grabberTrained_linkInv
  grabberLost := .inr fun _ _ => grabberLost_linkInv
  observePsel := .inr fun v s _ h => h.of_loader ((observePsel_within v s).mono (by decide)) (observePsel_startingUp v s)
  assertSreq := .inr fun s _ h => h.of_loader ((assertSreq_within s).mono (by decide)) (assertSreq_startingUp s)
  releaseSreq := .inr fun s _ h => h.of_loader ((releaseSreq_within s).mono (by decide)) (releaseSreq_startingUp s)
  takeReadEnd := .inr fun _ _ _ _ => takeReadEnd_linkInv

/-- Settles O56: what joins a queue is granted only with room for it, and the links change with what they hold. -/
theorem stepKeepsTheEgressUnit : Obligations.StepKeepsTheEgressUnit := ⟨egressInv_kept.step, linkInv_kept.step⟩

end Sys2Proof.Machine
end

section
/-! The statement of the store and the held reset (sections 1.9, 10.4, 10.7 and 11.5). -/

namespace Sys2Proof.Machine

/-! ## The store -/

/-- The loader reads the store (R165, R172). -/
def Pfl.Reading (f : Pfl) : Prop := f.loader = .loadingInitial ∨ f.loader = .loading

/-- StoreInv, of the loader's block and whether a reset is held. -/
def Pfl.StoreLaw (f : Pfl) (held : Bool) : Prop :=
  (f.sgnt = true ↔ f.owner = .programmer) ∧ (f.Reading → f.owner = .loader) ∧
    (f.transaction.isSome ↔ held = false ∧ f.Reading) ∧ (held = true → f.loader = .loadingInitial)

theorem storeInv_iff (s : State) : StoreInv s ↔ s.pfl.StoreLaw s.inReset := Iff.rfl

theorem storeInv_blind {s t : State} (w : Within [.pins, .wpu, .mkt, .tgn, .lnb, .frt, .egu, .rpu, .sau, .pending] s t)
    (h : StoreInv s) : StoreInv t := by
  rw [storeInv_iff, w.pfl (by decide), w.inReset (by decide)]
  exact h

namespace Pfl.StoreLaw

/-- The law follows the owner, SGNT, the transaction and which of its two reading states the loader is in. -/
theorem congr {f g : Pfl} {held : Bool} (h : f.StoreLaw held) (ho : g.owner = f.owner) (hs : g.sgnt = f.sgnt)
    (ht : g.transaction = f.transaction) (hi : g.loader = .loadingInitial ↔ f.loader = .loadingInitial)
    (hl : g.loader = .loading ↔ f.loader = .loading) : g.StoreLaw held := by
  unfold StoreLaw Reading at *
  rwa [ho, hs, ht, hi, hl]

/-- A loader that does not own the store does not read it, and no reset is held. -/
theorem not_reading {f : Pfl} {held : Bool} (h : f.StoreLaw held) (ho : f.owner ≠ .loader) :
    ¬f.Reading ∧ held = false := by
  obtain ⟨-, owns, -, initial⟩ := h
  exact ⟨fun r => ho (owns r), Bool.eq_false_iff.2 fun hr => ho (owns (.inl (initial hr)))⟩

/-- The store given to the programmer, or taken back from it. -/
theorem setOwner {f : Pfl} {held : Bool} (h : f.StoreLaw held) (ho : f.owner ≠ .loader) {o : StoreOwner} {b : Bool}
    (hb : b = true ↔ o = .programmer) : ({ f with owner := o, sgnt := b } : Pfl).StoreLaw held := by
  have unread := h.not_reading ho
  obtain ⟨-, -, transaction, initial⟩ := h
  exact ⟨hb, fun r => absurd r unread.left, transaction, initial⟩

theorem sgnt_eq_false {f : Pfl} {held : Bool} (h : f.StoreLaw held) (ho : f.owner ≠ .programmer) : f.sgnt = false :=
  Bool.eq_false_iff.2 fun hs => ho (h.left.1 hs)

end Pfl.StoreLaw

/-- A test for a request does not touch the store and neither enters nor leaves a reading state. -/
theorem testRequest_store (s : State) :
    (testRequest s).pfl.owner = s.pfl.owner ∧ (testRequest s).pfl.sgnt = s.pfl.sgnt ∧
      (testRequest s).pfl.transaction = s.pfl.transaction ∧
      ((testRequest s).pfl.loader = .loading ↔ s.pfl.loader = .loading) := by
  unfold testRequest
  dsimp only
  split
  case h_1 hl => split <;> simp [hl]
  case h_2 hl => split <;> simp [hl]
  case h_3 hl => split_ifs <;> simp [hl]
  all_goals exact ⟨rfl, rfl, rfl, Iff.rfl⟩

theorem testRequest_storeInv {s : State} (h : StoreInv s) : StoreInv (testRequest s) := by
  obtain ⟨owner, sgnt, transaction, loading⟩ := testRequest_store s
  rw [storeInv_iff, (testRequest_within s).inReset (by decide)]
  exact Pfl.StoreLaw.congr h owner sgnt transaction (testRequest_startingUp s) loading

theorem takeDebounce_storeInv {s : State} (h : StoreInv s) : StoreInv (takeDebounce s) := by
  unfold takeDebounce
  split
  · exact testRequest_storeInv h
  · exact h

theorem takeDrainEnd_storeInv {s : State} (h : StoreInv s) : StoreInv (takeDrainEnd s) := by
  unfold takeDrainEnd
  split
  case isTrue due =>
    have draining : s.pfl.loader = .draining := by
      simp only [State.drainDue, Bool.and_eq_true, beq_iff_eq] at due
      exact due.left.left
    exact Pfl.StoreLaw.congr h rfl rfl rfl (by simp [draining]) (by simp [draining])
  case isFalse => exact h

theorem grantStore_storeInv {s : State} (h : StoreInv s) (free : s.pfl.owner = .free) : StoreInv (grantStore s) :=
  Pfl.StoreLaw.setOwner h (by simp [free]) (by simp)

theorem takeGrant_storeInv {s : State} (h : StoreInv s) : StoreInv (takeGrant s) := by
  unfold takeGrant
  split
  case isTrue due =>
    simp only [State.grantDue, Bool.and_eq_true, beq_iff_eq] at due
    exact grantStore_storeInv h due.left
  case isFalse => exact h

theorem takeLoadingStart_storeInv {s : State} (h : StoreInv s) : StoreInv (takeLoadingStart s) := by
  unfold takeLoadingStart
  split
  case isTrue due =>
    simp only [State.loadDue, Bool.and_eq_true, beq_iff_eq] at due
    have released := (Pfl.StoreLaw.not_reading h (by simp [due.left])).right
    have inactive := Pfl.StoreLaw.sgnt_eq_false h (by simp [due.left])
    rw [storeInv_iff, State.setPfl_inReset, released]
    exact ⟨by simp [inactive], fun _ => rfl, by simp [Pfl.Reading], nofun⟩
  case isFalse => exact h

theorem endReset_storeInv {s : State} (h : StoreInv s) : StoreInv (endReset s) := by
  unfold endReset
  split
  case isTrue held =>
    obtain ⟨sgnt, owns, -, initial⟩ := h
    exact ⟨sgnt, owns, ⟨fun _ => ⟨rfl, .inl (initial held)⟩, fun _ => rfl⟩, nofun⟩
  case isFalse => exact h

theorem observePsel_storeInv {v : BitVec 2} {s : State} (h : StoreInv s) : StoreInv (observePsel v s) := by
  unfold observePsel
  split
  · exact h
  · exact Pfl.StoreLaw.congr h rfl rfl rfl Iff.rfl Iff.rfl

theorem assertSreq_storeInv {s : State} (h : StoreInv s) : StoreInv (assertSreq s) := by
  unfold assertSreq
  dsimp only
  split
  · exact h
  · split
    · exact grantStore_storeInv (s := s.setSreqPin true) h ‹_›
    · exact h

theorem releaseSreq_storeInv {s : State} (h : StoreInv s) : StoreInv (releaseSreq s) := by
  unfold releaseSreq
  dsimp only
  split
  · split
    case isTrue owned =>
      have owner : s.pfl.owner = .programmer := owned
      exact Pfl.StoreLaw.setOwner h (by simp [owner]) (by simp)
    case isFalse => exact h
  · exact h

/-! ## The store at the end of a load -/

/-- The store is given up: FREE, not granted, and no transaction in progress. -/
def Pfl.Freed (f : Pfl) : Prop := f.owner = .free ∧ f.sgnt = false ∧ f.transaction = none

theorem Pfl.Freed.law {f : Pfl} (h : f.Freed) (hr : ¬f.Reading) : f.StoreLaw false := by
  obtain ⟨owner, sgnt, transaction⟩ := h
  unfold Pfl.StoreLaw
  rw [owner, sgnt, transaction]
  exact ⟨by simp, fun r => absurd r hr, by simp [hr], nofun⟩

theorem testRequest_reading (s : State) : (testRequest s).pfl.Reading ↔ s.pfl.Reading :=
  or_congr (testRequest_startingUp s) (testRequest_store s).2.2.2

theorem testRequest_freed {s : State} (h : s.pfl.Freed) : (testRequest s).pfl.Freed := by
  obtain ⟨owner, sgnt, transaction, -⟩ := testRequest_store s
  unfold Pfl.Freed
  rwa [owner, sgnt, transaction]

/-- The store is given up and the loader reads no more. -/
def State.DoneReading (s : State) : Prop := s.pfl.Freed ∧ ¬s.pfl.Reading

theorem DoneReading.testRequest {s : State} (h : s.DoneReading) : (testRequest s).DoneReading :=
  ⟨testRequest_freed h.left, mt (testRequest_reading s).1 h.right⟩

theorem DoneReading.congr {s t : State} (h : s.DoneReading) (hp : t.pfl = s.pfl) : t.DoneReading := by
  unfold State.DoneReading
  rwa [hp]

theorem enterFallback_doneReading {s : State} (hs : s.pfl.sgnt = false) (ht : s.pfl.transaction = none) :
    (enterFallback s).DoneReading := by
  refine DoneReading.testRequest (DoneReading.congr ?_ ((deliver_within ..).pfl (by decide)))
  exact ⟨⟨rfl, hs, ht⟩, by simp [Pfl.Reading]⟩

theorem activate_doneReading {n : BitVec 2} {p : Profile} {r : Option (BitVec 2)} {s : State} (h : s.pfl.Freed) :
    (activate n p r s).DoneReading := by
  unfold State.DoneReading
  rw [activate_pfl]
  exact ⟨h, by simp [Pfl.Reading]⟩

theorem loadAccepted_doneReading {n : BitVec 2} {p : Profile} {s : State} (h : s.pfl.Freed) :
    (loadAccepted n p s).DoneReading := by
  unfold loadAccepted
  refine DoneReading.testRequest (DoneReading.congr ?_ ((raiseReport_within ..).pfl (by decide)))
  split
  · exact DoneReading.congr (activate_doneReading h) ((deliver_within ..).pfl (by decide))
  · exact activate_doneReading h

theorem loadRefused_doneReading {n : BitVec 2} {why : Reason} {s : State} (h : s.pfl.Freed) :
    (loadRefused n why s).DoneReading := by
  have ⟨_, sgnt, transaction⟩ := h
  unfold loadRefused
  dsimp only
  split
  · exact enterFallback_doneReading sgnt transaction
  · refine DoneReading.testRequest (DoneReading.congr ?_ ((raiseReport_within ..).pfl (by decide)))
    refine DoneReading.congr ?_ ((clearFolding_within _).pfl (by decide))
    refine DoneReading.congr ?_ (restartBlocks_pfl ..)
    exact ⟨h, by simp [Pfl.Reading]⟩

theorem finishLoad_doneReading {n : BitVec 2} {g : Staging} {s : State} (hg : s.pfl.staging = some g)
    (hs : s.pfl.sgnt = false) (ht : s.pfl.transaction = none) : (finishLoad n s).DoneReading := by
  have freed : ({ s.pfl with owner := .free } : Pfl).Freed := ⟨rfl, hs, ht⟩
  unfold finishLoad
  rw [hg]
  dsimp only
  split
  · exact loadAccepted_doneReading freed
  · exact loadRefused_doneReading freed

theorem releaseAndRefresh_doneReading {s : State} (h : s.DoneReading) : (refreshFlow (releaseGrabber s)).DoneReading :=
  DoneReading.congr h (((releaseGrabber_within s).trans (refreshFlow_within _)).pfl (by decide))

theorem startUpDone_doneReading {n : BitVec 2} {s : State} (hs : s.pfl.sgnt = false) (ht : s.pfl.transaction = none)
    (hr : ¬s.pfl.Reading) : (startUpDone n s).DoneReading := by
  refine DoneReading.testRequest (releaseAndRefresh_doneReading ?_)
  exact DoneReading.congr (s := s.setPfl { s.pfl with owner := .free }) ⟨⟨rfl, hs, ht⟩, hr⟩
    ((raiseReport_within ..).pfl (by decide))

theorem finishStartUp_storeInv {n : BitVec 2} {g : Staging} {s : State} (hr : s.inReset = false)
    (hg : s.pfl.staging = some g) (hs : s.pfl.sgnt = false) (ht : s.pfl.transaction = none)
    (hl : s.pfl.loader = .loadingInitial) (ho : s.pfl.owner = .loader) : StoreInv (finishStartUp n s) := by
  have done {t : State} (h : t.DoneReading) (e : t.inReset = s.inReset) : StoreInv t := by
    rw [storeInv_iff, e, hr]
    exact h.left.law h.right
  have kept (t : State) : (refreshFlow (releaseGrabber t)).inReset = t.inReset :=
    ((releaseGrabber_within t).trans (refreshFlow_within _)).inReset (by decide)
  unfold finishStartUp
  rw [hg]
  dsimp only
  split
  · refine done (startUpDone_doneReading ?_ ?_ ?_) ?_
    · rw [activate_pfl]; exact hs
    · rw [activate_pfl]; exact ht
    · rw [activate_pfl]; simp [Pfl.Reading]
    · rw [(startUpDone_within ..).inReset (by decide), (activate_within ..).inReset (by decide)]
  · split
    · refine done (releaseAndRefresh_doneReading (enterFallback_doneReading hs ht)) ?_
      rw [kept, (enterFallback_within _).inReset (by decide)]
    · split
      · refine done (releaseAndRefresh_doneReading (enterFallback_doneReading hs ht)) ?_
        rw [kept, (enterFallback_within _).inReset (by decide), State.setPfl_inReset]
      · rw [storeInv_iff, State.setPfl_inReset, State.setPfl_inReset, hr]
        exact ⟨by simp [hs, ho], fun _ => ho, by simp [Pfl.Reading, hl], nofun⟩

theorem takeReadEnd_storeInv {b r : List Byte} {s : State} (hr : s.inReset = false) (h : StoreInv s) :
    StoreInv (takeReadEnd b r s) := by
  have ⟨_, owns, _, _⟩ := h
  have inactive (hl : s.pfl.Reading) : s.pfl.sgnt = false := Pfl.StoreLaw.sgnt_eq_false h (by simp [owns hl])
  unfold takeReadEnd
  dsimp only
  split
  · exact h
  · split
    case h_1 initial =>
      exact finishStartUp_storeInv hr rfl (inactive (.inl initial)) rfl initial (owns (.inl initial))
    case h_2 loading =>
      have ended := finishLoad_doneReading (n := ‹_›) (s := s.setPfl { s.pfl with
        staging := some (readStore ‹_› b r), transaction := none }) rfl (inactive (.inr loading)) rfl
      rw [storeInv_iff, (finishLoad_within ..).inReset (by decide), State.setPfl_inReset, hr]
      exact ended.left.law ended.right
    all_goals exact h

theorem storeInv_kept : Kept [.pins, .wpu, .mkt, .tgn, .lnb, .frt, .egu, .rpu, .sau, .pending] StoreInv where
  blind := storeInv_blind
  takeDebounce := .inr fun _ => takeDebounce_storeInv
  takeDrainEnd := .inr fun _ => takeDrainEnd_storeInv
  takeGrant := .inr fun _ => takeGrant_storeInv
  takeLoadingStart := .inr fun _ => takeLoadingStart_storeInv
  resetBlocks _ _ _ := ⟨⟨nofun, nofun⟩, fun _ => rfl, ⟨nofun, nofun⟩, fun _ => rfl⟩
  endReset := .inr fun _ => endReset_storeInv
  observePsel := .inr fun _ _ _ => observePsel_storeInv
  assertSreq := .inr fun _ _ => assertSreq_storeInv
  releaseSreq := .inr fun _ _ => releaseSreq_storeInv
  takeReadEnd := .inr fun _ _ _ hr => takeReadEnd_storeInv hr

/-! ## A held reset -/

/-- In a held reset nothing is due. -/
theorem held_quiet (pins : Pins) (hold : Bool) (cause : StartCause) (pending : List Instr) :
    (State.held pins hold cause pending).quiet = true := rfl

/-- What leaves the reset as it is keeps its values where it leaves a held reset's state. -/
theorem ResetHeldInv.of_fixed {s t : State} {bs : List Block} (h : ResetHeldInv s) (w : Within bs s t)
    (fixed : s.quiet = true → t = s) (hb : .inReset ∉ bs := by decide) : ResetHeldInv t := by
  intro held
  have heldBefore : s.inReset = true := (w.inReset hb).symm.trans held
  have values := h heldBefore
  have same := fixed (by rw [values]; exact held_quiet ..)
  rw [same]
  exact values

/-- What leaves the reset as it is keeps the law while no reset is held. -/
theorem resetHeldInv_of_live {s t : State} {bs : List Block} (hr : s.inReset = false) (w : Within bs s t)
    (hb : .inReset ∉ bs := by decide) : ResetHeldInv t :=
  fun held => absurd (held.symm.trans ((w.inReset hb).trans hr)) (by decide)

/-- In a quiet state no event that a step takes of itself is taken. -/
structure State.NothingDue (s : State) : Prop where
  qualifies : s.qualifiesDue = false
  window : s.windowDue = false
  channels : ∀ c, s.channelQuiet c = true
  interval : s.intervalDue = false
  block : s.blockDue = false
  debounce : s.debounceDue = false
  status : s.rpu.statusDue = 0
  drain : s.drainDue = false
  grant : s.grantDue = false
  load : s.loadDue = false
  form : s.formDue = false

theorem State.nothingDue {s : State} (h : s.quiet = true) : s.NothingDue := by
  simp only [State.quiet, Bool.and_eq_true, Bool.not_eq_true', List.all_eq_true, beq_iff_eq] at h
  obtain ⟨⟨⟨⟨⟨⟨⟨⟨⟨⟨qualifies, window⟩, channels⟩, interval⟩, block⟩, debounce⟩, status⟩, drain⟩, grant⟩, load⟩,
    form⟩ := h
  exact ⟨qualifies, window, fun c => channels c c.forall_mem_all, interval, block, debounce, status, drain, grant, load,
    form⟩

/-- In a quiet channel nothing is due. -/
structure State.ChannelIdle (s : State) (c : Ch) : Prop where
  latency : s.latencyDue c = false
  fire : s.fireDue c = false
  stall : s.stallDue c = false
  fence : s.fenceDue c = false
  pulse : s.pulseDue c = false

theorem State.channelIdle {s : State} (h : s.quiet = true) (c : Ch) : s.ChannelIdle c := by
  have quiet := (State.nothingDue h).channels c
  simp only [State.channelQuiet, Bool.and_eq_true, Bool.not_eq_true'] at quiet
  obtain ⟨⟨⟨⟨latency, fire⟩, stall⟩, fence⟩, pulse⟩ := quiet
  exact ⟨latency, fire, stall, fence, pulse⟩

theorem takeStatus_of_not_due {s : State} (h : s.rpu.statusDue = 0) : takeStatus s = s := if_pos h

/-- A held reset with a line or the queue of waiting commands changed is a held reset. -/
theorem ResetHeldInv.setPins {s : State} (h : ResetHeldInv s) (v : Pins) : ResetHeldInv { s with pins := v } :=
  fun held => by
    have values := h held
    rw [values]
    rfl

theorem ResetHeldInv.setPending {s : State} (h : ResetHeldInv s) (q : List Instr) :
    ResetHeldInv { s with pending := q } :=
  fun held => by
    have values := h held
    rw [values]
    rfl

theorem ResetHeldInv.setHold {s : State} (h : ResetHeldInv s) (l : Bool) : ResetHeldInv (s.setHold l) :=
  fun held => by
    have values := h held
    rw [values]
    rfl

theorem endReset_resetHeldInv {s : State} (h : ResetHeldInv s) : ResetHeldInv (endReset s) := by
  unfold endReset
  split
  · exact nofun
  · exact h

theorem resetHeldInv_keptByAll : KeptByAll ResetHeldInv where
  pending _ q h := h.setPending q
  takeQualifies s h := h.of_fixed (takeQualifies_within s) fun q => takeQualifies_of_not_due (State.nothingDue q).qualifies
  takeWindow s h := h.of_fixed (takeWindow_within s) fun q => takeWindow_of_not_due (State.nothingDue q).window
  takeLatency c s h := h.of_fixed (takeLatency_within c s) fun q => takeLatency_of_not_due (State.channelIdle q c).latency
  takeFire c s h := h.of_fixed (takeFire_within c s) fun q => takeFire_of_not_due (State.channelIdle q c).fire
  takeStall c s h := h.of_fixed (takeStall_within c s) fun q => takeStall_of_not_due (State.channelIdle q c).stall
  takeFence c s h := h.of_fixed (takeFence_within c s) fun q => takeFence_of_not_due (State.channelIdle q c).fence
  takePulseEnd c s h := h.of_fixed (takePulseEnd_within c s) fun q =>
    takePulseEnd_of_not_due (State.channelIdle q c).pulse
  takeInterval s h := h.of_fixed (takeInterval_within s) fun q => takeInterval_of_not_due (State.nothingDue q).interval
  takeBlockEnd s h := h.of_fixed (takeBlockEnd_within s) fun q => takeBlockEnd_of_not_due (State.nothingDue q).block
  takeDebounce s h := h.of_fixed (takeDebounce_within s) fun q => takeDebounce_of_not_due (State.nothingDue q).debounce
  takeStatus s h := h.of_fixed (takeStatus_within s) fun q => takeStatus_of_not_due (State.nothingDue q).status
  takeDrainEnd s h := h.of_fixed (takeDrainEnd_within s) fun q => takeDrainEnd_of_not_due (State.nothingDue q).drain
  takeGrant s h := h.of_fixed (takeGrant_within s) fun q => takeGrant_of_not_due (State.nothingDue q).grant
  takeLoadingStart s h := h.of_fixed (takeLoadingStart_within s) fun q =>
    takeLoadingStart_of_not_due (State.nothingDue q).load
  formReportGroup s h := h.of_fixed (formReportGroup_within s) fun q =>
    formReportGroup_of_not_due (State.nothingDue q).form
  addMicrosecond s hr _ := resetHeldInv_of_live hr (addMicrosecond_within s)
  resetBlocks _ _ _ := fun _ => rfl
  endReset _ := endReset_resetHeldInv
  setEncoderPins _ _ _ _ h := h.setPins _
  observePair q s hr _ := resetHeldInv_of_live hr (observePair_within q s)
  setMark _ _ h := h.setPins _
  observeMark l s hr _ := resetHeldInv_of_live hr (observeMark_within l s)
  setHold l _ h := h.setHold l
  acceptRequest r s _ hr _ := resetHeldInv_of_live hr (acceptRequest_within r s)
  admitPiece s hr _ := resetHeldInv_of_live hr (admitPiece_within s)
  admitPass s hr _ := resetHeldInv_of_live hr (admitPass_within s)
  admitFrameItem s hr _ := resetHeldInv_of_live hr (admitFrameItem_within s)
  admitRecord s hr _ := resetHeldInv_of_live hr (admitRecord_within s)
  admitMessage s hr _ := resetHeldInv_of_live hr (admitMessage_within s)
  sendEgress s hr _ := resetHeldInv_of_live hr (sendEgress_within s)
  takeDownstream r s hr _ := resetHeldInv_of_live hr (takeDownstream_within r s)
  sendDownstream s hr _ := resetHeldInv_of_live hr (sendDownstream_within s)
  hostLinkUp s hr _ := resetHeldInv_of_live hr (hostLinkUp_within s)
  linkReset s hr _ := resetHeldInv_of_live hr (linkReset_within s)
  grabberTrained s hr _ := resetHeldInv_of_live hr (grabberTrained_within s)
  grabberLost s hr _ := resetHeldInv_of_live hr (grabberLost_within s)
  setClearPin _ _ h := h.setPins _
  sampleClear a s hr _ := resetHeldInv_of_live hr (sampleClear_within a s)
  setPsel _ _ h := h.setPins _
  observePsel v s hr _ := resetHeldInv_of_live hr (observePsel_within v s)
  setSreqPin _ _ h := h.setPins _
  assertSreq s hr _ := resetHeldInv_of_live hr (assertSreq_within s)
  releaseSreq s hr _ := resetHeldInv_of_live hr (releaseSreq_within s)
  takeReadEnd b r s hr _ := resetHeldInv_of_live hr (takeReadEnd_within b r s)

/-- Settles O58: the store changes hands with SGNT and the loader's state, and in a held reset nothing is due. -/
theorem stepKeepsTheStoreAndTheHeldReset : Obligations.StepKeepsTheStoreAndTheHeldReset :=
  ⟨storeInv_kept.step, step_keeps resetHeldInv_keptByAll⟩

end Sys2Proof.Machine
end

section
/-! The statements of the queue, the outcomes and the resets, and what the active profile changes at. -/

namespace Sys2Proof.Machine

/-! ## Commands in a ready state, and outside a reset -/

theorem live_of_released {s : State} (f : State → State) (h : s.inReset = false) : live f s = f s :=
  if_neg (Bool.eq_false_iff.1 h)

/-- In a ready state a command from outside acts at once. -/
theorem outside_of_ready {s : State} (f : State → State) (h : s.ready = true) : outside f s = f s := by
  obtain ⟨released, settled⟩ := State.ready_settled h
  rw [outside, if_neg (Bool.eq_false_iff.1 released), settled]

/-- In a ready state a line's change is acted on at once. -/
theorem held_of_ready {s : State} (f : State) (g : State → State) (h : s.ready = true) :
    (if s.inReset then f else g (settle s)) = g s := by
  obtain ⟨released, settled⟩ := State.ready_settled h
  rw [if_neg (Bool.eq_false_iff.1 released), settled]

theorem tick_of_held {s : State} (h : s.inReset = true) : tick s = s := if_pos h

theorem tick_of_settled {s : State} (hr : s.inReset = false) (h : settle s = s) :
    tick s = sampleClear s.pins.clear s.addMicrosecond := by
  rw [tick, if_neg (Bool.eq_false_iff.1 hr), h]
  rfl

/-- CLEAR sampled without a pulse only sets the reference (R159). -/
theorem sampleClear_of_no_pulse {s : State} {l : Bool} (h : l = false ∨ s.sau.clearRef = true) :
    sampleClear l s = { s with sau := { s.sau with clearRef := l } } := by
  refine if_neg ?_
  rcases h with rfl | h
  · simp
  · simp [h]

theorem step_of_empty {s : State} (h : s.pending = []) : step s = .next (tick s) := by
  unfold step
  rw [h]

/-! ## The outcomes -/

/-- Settles O1: the front command is what `step` matches on. -/
theorem stepRunsTheFrontCommand : Obligations.StepRunsTheFrontCommand := fun _ _ => rfl

theorem pending_notMem_commandBlocks (c : Instr) : Block.pending ∉ commandBlocks c := by
  cases c <;> simp [commandBlocks]

/-- Every well-formed command answers next: the one refusal is of a malformed grabber request. -/
theorem exec_proceeds (c : Instr) (s : State) (h : c.wellFormed = true) : ∃ t, exec c s = .next t := by
  cases c with
  | grabberRequestAccept r => exact ⟨_, if_pos h⟩
  | _ => exact ⟨_, rfl⟩

/-- Settles O2: the arms answer next, and no command has the waiting commands among the blocks it can change. -/
theorem wellFormedCommandsProceed : Obligations.WellFormedCommandsProceed := by
  refine ⟨fun c s h => ?_, fun _ _ f => nomatch f⟩
  obtain ⟨t, ht⟩ := exec_proceeds c s h
  exact ⟨t, ht, (exec_within ht).pending (pending_notMem_commandBlocks c)⟩

/-- Settles O3: a quiet state settles to itself, so that its microsecond is the increment of TIME and the sample. -/
theorem quietStatesSettleAndIdle : Obligations.QuietStatesSettleAndIdle := by
  refine ⟨fun s => settle_of_quiet, fun s hq => ⟨fun held => ?_, fun ready clear => ?_⟩⟩
  · rw [step_of_empty hq, tick_of_held held]
  · obtain ⟨released, settled⟩ := State.ready_settled ready
    rw [step_of_empty hq, tick_of_settled released settled, clear, sampleClear_of_no_pulse (.inl rfl)]
    rfl

/-! ## The resets -/

/-- The cause with which each of the two resets sets the blocks (R165, log 19). -/
theorem exec_reset {c : Instr} (s : State) (h : c = .powerOn ∨ c = .resetPin) :
    exec c s = .next (resetBlocks
      (if c = .powerOn ∨ (s.inReset = true ∧ s.pfl.startCause = .powerOn) then .powerOn else .resetPin) s) := by
  rcases h with rfl | rfl
  · rw [if_pos (.inl rfl)]
    rfl
  · simp only [reduceCtorEq, false_or]
    rfl

/-- Settles O4: both resets leave `State.held` of their cause. -/
theorem resetsSetTheStatedValues : Obligations.ResetsSetTheStatedValues := fun _ s h =>
  ⟨_, exec_reset s h, rfl, rfl, rfl, ⟨rfl, rfl, rfl, rfl, rfl, rfl, rfl, rfl, rfl⟩, fun ch => Quad.get_all _ ch,
    fun ch => Quad.get_all _ ch, rfl, ⟨rfl, rfl, rfl, rfl, rfl, rfl, rfl⟩, ⟨rfl, rfl, rfl, rfl, rfl, rfl⟩,
    ⟨rfl, rfl, rfl, rfl, rfl, rfl, rfl, rfl, rfl⟩, ⟨rfl, rfl, rfl, rfl, rfl, rfl, rfl, rfl, rfl⟩, rfl⟩

/-- Settles O5: the end of a reset is the one branch of `endReset` that acts. -/
theorem resetEndStartsTheStartUpLoad : Obligations.ResetEndStartsTheStartUpLoad := fun _ =>
  ⟨fun h => congrArg Host.Outcome.next (if_pos h),
    fun h => congrArg Host.Outcome.next (if_neg (Bool.eq_false_iff.1 h))⟩

theorem reset_frameTableInv : FrameTableInv State.reset :=
  ⟨List.nodup_nil, fun _ h => absurd h List.not_mem_nil, fun _ h => absurd h List.not_mem_nil, Nat.zero_le _,
    fun _ h => absurd h (Option.some_ne_none _).symm⟩

theorem reset_egressInv : EgressInv State.reset :=
  ⟨Nat.zero_le _, Nat.zero_le _, fun _ h => absurd h (Option.some_ne_none _).symm⟩

theorem reset_linkInv : LinkInv State.reset :=
  ⟨rfl, rfl, fun h => absurd h Bool.false_ne_true, fun h => absurd h Bool.false_ne_true, fun _ => ⟨rfl, rfl, rfl⟩⟩

/-- Settles O51: in State.reset every queue and table is empty, every optional value absent, every count 0. -/
theorem invariantsHoldAtReset : Obligations.InvariantsHoldAtReset := by
  refine ⟨⟨by decide, by decide⟩, ⟨fun _ => ⟨rfl, rfl, rfl, rfl⟩, fun h => absurd rfl h, by decide, by decide⟩,
    fun c => Tgn.Orderly.of_empty ?_, reset_frameTableInv, reset_egressInv, reset_linkInv,
    ⟨by decide, .nil, by decide⟩, rfl, ⟨by decide, fun _ => rfl, by decide, fun _ => rfl⟩, fun _ => rfl⟩
  cases c <;> rfl

/-! ## The active profile -/

/-- `f` leaves the active profile. -/
def KeepsActive (f : State → State) : Prop := ∀ s, (f s).pfl.active = s.pfl.active

theorem Within.active {bs : List Block} {s t : State} (w : Within bs s t) (h : .pfl ∉ bs) :
    t.pfl.active = s.pfl.active := by rw [w.pfl h]

namespace KeepsActive

theorem of_within {bs : List Block} {f : State → State} (w : ∀ s, Within bs s (f s)) (h : .pfl ∉ bs) :
    KeepsActive f := fun s => (w s).active h

theorem comp {f g : State → State} (hf : KeepsActive f) (hg : KeepsActive g) : KeepsActive fun s => f (g s) :=
  fun s => (hf _).trans (hg s)

theorem settle : KeepsActive settle := fun s => by
  have events : KeepsActive fun s =>
      takeBlockEnd (takeInterval ((takeWindow (takeQualifies s)).forChannels settleChannel)) :=
    of_within (bs := [.mkt, .tgn, .lnb, .frt, .rpu, .sau]) (fun s =>
      ((((takeQualifies_within s).mono (by decide)).trans ((takeWindow_within _).mono (by decide))).trans
        ((forChannels_within settleChannel_within _).mono (by decide))).trans
        (((takeInterval_within _).mono (by decide)).trans ((takeBlockEnd_within _).mono (by decide)))) (by decide)
  have status (n : Nat) : KeepsActive (repeatTimes takeStatus n) :=
    of_within (repeatTimes_within takeStatus_within n) (by decide)
  have form : KeepsActive formReportGroup := of_within formReportGroup_within (by decide)
  unfold Machine.settle
  dsimp only
  have taken := (takeDebounce_active _).trans (events s)
  dsimp only at taken
  generalize takeDebounce (takeBlockEnd (takeInterval _)) = u at taken ⊢
  rw [form, takeLoadingStart_active, takeGrant_active, takeDrainEnd_active, status, taken]

theorem live {f : State → State} (h : KeepsActive f) : KeepsActive (live f) := fun s => by
  unfold Machine.live
  split
  · rfl
  · exact h s

theorem outside {f : State → State} (h : KeepsActive f) : KeepsActive (outside f) := fun s => by
  unfold Machine.outside
  split
  · rfl
  · exact h.comp settle s

/-- The shape of a command that keeps a line's level while a reset is held. -/
theorem held {f g : State → State} (hf : KeepsActive f) (hg : KeepsActive g) :
    KeepsActive fun s => if s.inReset then f s else g (Machine.settle s) := fun s => by
  dsimp only
  split
  · exact hf s
  · exact hg.comp settle s

theorem tick : KeepsActive tick := fun s => by
  unfold Machine.tick
  split
  · rfl
  · have settled := settle s
    generalize Machine.settle s = t at settled ⊢
    exact ((sampleClear_within _ t.addMicrosecond).active (by decide)).trans settled

/-- Every command but a reset and the end of a load leaves the active profile (R163, R173). -/
theorem of_exec {c : Instr} {s t : State} (hp : c ≠ .powerOn) (hr : c ≠ .resetPin)
    (hl : ∀ h r, c ≠ .loadReadEnd h r) (h : exec c s = .next t) : t.pfl.active = s.pfl.active := by
  cases c with
  | powerOn => exact absurd rfl hp
  | resetPin => exact absurd rfl hr
  | loadReadEnd b r => exact absurd rfl (hl b r)
  | resetEnd => cases h; exact endReset_active s
  | encoderTransition a b r =>
    cases h
    exact held (of_within (setEncoderPins_within a b r) (by decide)) (.comp
      (of_within (observePair_within (a, b)) (by decide)) (of_within (setEncoderPins_within a b r) (by decide))) s
  | markChange l =>
    cases h
    exact held (f := fun s => { s with pins := { s.pins with mark := l } }) (fun _ => rfl)
      (of_within (observeMark_within l) (by decide)) s
  | holdChange l => cases h; exact held (f := (·.setHold l)) (g := (·.setHold l)) (fun _ => rfl) (fun _ => rfl) s
  | clearPulse l => cases h; exact tick (s.setClearPin l)
  | pselChange v =>
    cases h
    exact held (f := fun s => { s with pins := { s.pins with psel := v } }) (fun _ => rfl) (observePsel_active v) s
  | sreqAssert => cases h; exact held (f := (·.setSreqPin true)) (fun _ => rfl) assertSreq_active s
  | sreqRelease => cases h; exact held (f := (·.setSreqPin false)) (fun _ => rfl) releaseSreq_active s
  | grabberRequestAccept r =>
    simp only [exec, execGrabberRequestAccept] at h
    split at h
    · cases h; exact outside (of_within (acceptRequest_within r) (by decide)) s
    · cases h
  | candidateQualifies => cases h; exact live (of_within takeQualifies_within (by decide)) s
  | windowRunsOut => cases h; exact live (of_within takeWindow_within (by decide)) s
  | fire c => cases h; exact live (of_within (takeFire_within c) (by decide)) s
  | triggerPulseEnd c => cases h; exact live (of_within (takePulseEnd_within c) (by decide)) s
  | latencyExpiry c => cases h; exact live (of_within (takeLatency_within c) (by decide)) s
  | stall c => cases h; exact live (of_within (takeStall_within c) (by decide)) s
  | fence c => cases h; exact live (of_within (takeFence_within c) (by decide)) s
  | reportGroupForm => cases h; exact live (of_within formReportGroup_within (by decide)) s
  | statusEvent => cases h; exact live (of_within takeStatus_within (by decide)) s
  | speedIntervalExpiry => cases h; exact live (of_within takeInterval_within (by decide)) s
  | speedBlockEnd => cases h; exact live (of_within takeBlockEnd_within (by decide)) s
  | pselDebounceExpiry => cases h; exact live takeDebounce_active s
  | drainEnd => cases h; exact live takeDrainEnd_active s
  | storeGrant => cases h; exact live takeGrant_active s
  | loadingStart => cases h; exact live takeLoadingStart_active s
  | pieceAdmission => cases h; exact outside (of_within admitPiece_within (by decide)) s
  | passThroughAdmission => cases h; exact outside (of_within admitPass_within (by decide)) s
  | frameItemAdmission => cases h; exact outside (of_within admitFrameItem_within (by decide)) s
  | reportRecordAdmission => cases h; exact outside (of_within admitRecord_within (by decide)) s
  | messageInterrupt => cases h; exact outside (of_within admitMessage_within (by decide)) s
  | egressSend => cases h; exact outside (of_within sendEgress_within (by decide)) s
  | downstreamRequest r => cases h; exact outside (of_within (takeDownstream_within r) (by decide)) s
  | downstreamSend => cases h; exact outside (of_within sendDownstream_within (by decide)) s
  | hostLinkFirstUp => cases h; exact outside (of_within hostFirstUp_within (by decide)) s
  | hostLinkReset => cases h; exact outside (of_within hostReset_within (by decide)) s
  | hostLinkReturn => cases h; exact outside (of_within hostReturn_within (by decide)) s
  | grabberLinkTrained => cases h; exact outside (of_within grabberTrained_within (by decide)) s
  | grabberLinkLoss => cases h; exact outside (of_within grabberLost_within (by decide)) s

end KeepsActive

/-- Settles O59: a step is a microsecond or the front command. -/
theorem onlyALoadChangesTheProfile : Obligations.OnlyALoadChangesTheProfile := by
  refine ⟨fun s t front h => ?_, fun c _ _ => KeepsActive.of_exec (c := c)⟩
  cases hq : s.pending with
  | nil =>
    rw [step_of_empty hq] at h
    cases h
    exact KeepsActive.tick s
  | cons c rest =>
    obtain ⟨hp, hr, hl⟩ := front c (by rw [hq]; rfl)
    rw [step, hq] at h
    exact KeepsActive.of_exec (s := { s with pending := rest }) hp hr hl h

end Sys2Proof.Machine
end

section
/-! The statements of chapter 1 that an observed pair answers without an advance, MARK and HOLD, mark edges, and the
repeat average. -/

namespace Sys2Proof.Machine

/-! ## Observed pairs, class by class -/

/-- A pair is of class SAME exactly where it is the reference (Table 1-2). -/
theorem classifyPair_eq_same_iff : ∀ (inverted : Bool) (r q : Bool × Bool),
    classifyPair inverted r q = .same ↔ r = q := by decide

theorem observePair_of_reference {q : Bool × Bool} {s : State} (h : s.wpu.encRef = some q) :
    observePair q s = s := by
  simp only [observePair, h, (classifyPair_eq_same_iff s.encInverted q q).2 rfl]

theorem observePair_of_first {q : Bool × Bool} {s : State} (h : s.wpu.encRef = none) :
    observePair q s = { s with wpu := { s.wpu with encRef := some q } } := by
  simp only [observePair, h]

theorem observePair_of_reverse {q r : Bool × Bool} {s : State} (h : s.wpu.encRef = some r)
    (hc : classifyPair s.encInverted r q = .reverse) :
    observePair q s = takeReverse { s with wpu := { s.wpu with encRef := some q } } := by
  simp only [observePair, h, hc]

theorem observePair_of_error {q r : Bool × Bool} {s : State} (h : s.wpu.encRef = some r)
    (hc : classifyPair s.encInverted r q = .error) :
    observePair q s = takeEncoderError { s with wpu := { s.wpu with encRef := some q } } := by
  simp only [observePair, h, hc]

/-- Whatever its class, the observed pair is the reference afterwards (R1). -/
theorem observePair_encRef (q : Bool × Bool) (s : State) : (observePair q s).wpu.encRef = some q := by
  cases h : s.wpu.encRef with
  | none => rw [observePair_of_first h]
  | some r =>
    by_cases same : r = q
    · rw [observePair_of_reference (same ▸ h), h, same]
    · have differs := mt (classifyPair_eq_same_iff s.encInverted r q).1 same
      have change := observePair_wpu q s
      unfold observePair
      simp only [h]
      split
      · exact absurd ‹_› differs
      · rw [takeForward_wpu]
        split <;> rfl
      · rw [takeReverse_wpu, Wpu.reverse_encRef]
        split <;> rfl
      · rw [takeEncoderError_wpu]

/-- Settles O7: the class of a pair equal to the reference is SAME, and a first pair has none. -/
theorem observedPairBecomesTheReference : Obligations.ObservedPairBecomesTheReference := by
  intro s a b rdy ready
  rw [exec_encoderTransition_of_ready a b rdy ready]
  refine ⟨fun same => ?_, fun first => ?_, _, rfl, observePair_encRef .., ?_⟩
  · rw [observePair_of_reference (s := s.setEncoderPins a b rdy) same]
    rfl
  · rw [observePair_of_first (s := s.setEncoderPins a b rdy) first]
    rfl
  · exact (observePair_within ..).pins (by decide)

/-! ## Reverse transitions -/

theorem Wpu.reverse_of_maxDepth {w : Wpu} (h : w.depth = Config.maxDepth) : w.reverse = w := if_pos h

theorem Wpu.reverse_of_ne_maxDepth {w : Wpu} (h : w.depth ≠ Config.maxDepth) :
    w.reverse =
      { w with wpos := w.wpos - 1, depth := w.depth + 1, deepest := min 16777215 (max w.deepest (w.depth + 1)) } :=
  if_neg h

theorem takeReverse_of_not_deep {s : State} (h : s.deepDue = false) :
    takeReverse s = { s with wpu := s.wpu.reverse } := if_neg (Bool.eq_false_iff.1 h)

/-- When a deep reversal is delivered (R7). -/
theorem State.deepDue_of_profile {s : State} {p : Profile} (h : s.profile = some p) :
    s.deepDue = true ↔
      s.wpu.depth ≠ Config.maxDepth ∧ s.wpu.deepDelivered = false ∧ p.reverseLimit < s.wpu.depth + 1 := by
  simp only [State.deepDue, h, Bool.and_eq_true, decide_eq_true_eq, Bool.not_eq_true', and_assoc]

theorem State.deepDue_of_no_profile {s : State} (h : s.profile = none) : s.deepDue = false := by
  simp only [State.deepDue, h]

/-- Settles O10: with no deep reversal a reverse transition is `Wpu.reverse` alone. -/
theorem reverseTransitionMovesWposBack : Obligations.ReverseTransitionMovesWposBack := by
  intro s a b rdy r ready reference reverse
  have observed (shallow : ∀ p, s.profile = some p →
      s.wpu.depth = Config.maxDepth ∨ s.wpu.deepDelivered = true ∨ s.wpu.depth + 1 ≤ p.reverseLimit) :
      exec (.encoderTransition a b rdy) s = .next { s with
        pins := { s.pins with encA := a, encB := b, rdy := rdy }
        wpu := ({ s.wpu with encRef := some (a, b) } : Wpu).reverse } := by
    rw [exec_encoderTransition_of_ready a b rdy ready,
      observePair_of_reverse (s := s.setEncoderPins a b rdy) reference reverse,
      takeReverse_of_not_deep]
    · rfl
    · cases h : s.profile with
      | none => exact State.deepDue_of_no_profile h
      | some p =>
        have limit := shallow p h
        refine Bool.eq_false_iff.2 fun deep => ?_
        obtain ⟨below, undelivered, above⟩ := (State.deepDue_of_profile (p := p) h).1 deep
        rcases limit with limit | limit | limit
        · exact below limit
        · exact Bool.eq_false_iff.1 undelivered limit
        · exact absurd above (Nat.not_lt.2 limit)
  refine ⟨fun deepest => ?_, fun below shallow => ?_⟩
  · rw [observed fun _ _ => .inl deepest, Wpu.reverse_of_maxDepth (by exact deepest)]
  · rw [observed fun p h => .inr (shallow p h), Wpu.reverse_of_ne_maxDepth (by exact below)]

/-! ## Encoder errors, MARK, HOLD -/

/-- Settles O12: an encoder error is a count and a flag raised. -/
theorem encoderErrorIsCounted : Obligations.EncoderErrorIsCounted := by
  intro s a b rdy r ready reference error
  have flags := raiseFlag_flags .encoder
  have blocks := raiseFlag_within .encoder
  refine ⟨_, exec_encoderTransition_of_ready a b rdy ready, ?_⟩
  rw [observePair_of_error (s := s.setEncoderPins a b rdy) reference error]
  unfold takeEncoderError
  obtain ⟨-, cond, set, -⟩ := flags _
  exact ⟨(blocks _).wpu (by decide), set, cond, (blocks _).mkt (by decide), (blocks _).tgn (by decide),
    (blocks _).lnb (by decide), (blocks _).frt (by decide), (blocks _).egu (by decide), (blocks _).pfl (by decide),
    (blocks _).pins (by decide)⟩

theorem exec_markChange_of_ready {s : State} (l : Bool) (h : s.ready = true) :
    exec (.markChange l) s = .next (observeMark l s) :=
  congrArg Host.Outcome.next (held_of_ready _ (observeMark l) h)

/-- Settles O13: at depth 0 MARK is only noted, above it the reference follows through MARK_POL. -/
theorem markAndHoldChanges : Obligations.MarkAndHoldChanges := by
  intro s l ready
  refine ⟨fun change depth => ?_, fun p change depth active => ?_, ?_⟩
  · rw [exec_markChange_of_ready l ready, observeMark, if_neg change.symm, if_pos depth]
  · rw [exec_markChange_of_ready l ready, observeMark, if_neg change.symm, if_neg depth.ne']
    have polarity : State.markActive { s with pins := { s.pins with mark := l } } l = (l != p.markActiveLow) := by
      rw [State.markActive, show State.profile { s with pins := { s.pins with mark := l } } = some p from active]
    rw [polarity]
    rfl
  · exact congrArg Host.Outcome.next (held_of_ready _ (·.setHold l) ready)

/-! ## Mark edges -/

theorem Mkt.fromNewest_of_newest {k : Mkt} {m : Mark} (h : k.newest = some m) (x : Pos) :
    k.fromNewest x = sdist m.pos x := by rw [Mkt.fromNewest, h]

theorem startCandidate_of_candidate {p : Profile} {s : State} (h : s.mkt.cand.isSome) : startCandidate p s = s := by
  obtain ⟨k, hk⟩ := Option.isSome_iff_exists.1 h
  simp only [startCandidate, hk]

theorem startCandidate_of_search {p : Profile} {s : State} (hc : s.mkt.cand = none) (h : s.mkt.lock = .search) :
    startCandidate p s = s.setMkt { s.mkt with
      cand := some { start := s.wpu.wmax, count := 0, inWindow := false, markMin := p.markMin } } := by
  simp only [startCandidate, hc, h]

/-- An edge in LOCKED or COASTING against the window (R21). -/
theorem startCandidate_of_locked {p : Profile} {s : State} (hc : s.mkt.cand = none) (h : s.mkt.lock ≠ .search) :
    startCandidate p s =
      if s.mkt.fromNewest s.wpu.wmax < (p.wLo : Int) then
        s.setMkt { s.mkt with inhibit := satInc Config.sat16 s.mkt.inhibit }
      else if s.mkt.fromNewest s.wpu.wmax ≤ (p.wHi : Int) then
        s.setMkt { s.mkt with
          cand := some { start := s.wpu.wmax, count := 0, inWindow := true, markMin := p.markMin } }
      else s := by
  cases hl : s.mkt.lock with
  | search => exact absurd hl h
  | locked => simp only [startCandidate, hc, hl]
  | coasting => simp only [startCandidate, hc, hl]

/-- Settles O14: the three branches of `startCandidate`. -/
theorem markEdgeStartsOrIsInhibited : Obligations.MarkEdgeStartsOrIsInhibited := by
  refine fun p s => ⟨startCandidate_of_candidate, startCandidate_of_search, fun m hc lock newest => ?_⟩
  rw [startCandidate_of_locked hc lock, Mkt.fromNewest_of_newest newest]
  exact ⟨fun low => if_pos low, fun low high => (if_neg (Int.not_lt.2 low)).trans (if_pos high)⟩

/-! ## The repeat average -/

/-- A rounded mean lies between the bounds of its terms. -/
theorem rounded_mean_between {lo hi : Nat} {l : List Nat} (hl : l ≠ []) (h : ∀ d ∈ l, lo ≤ d ∧ d ≤ hi) :
    lo ≤ (l.sum + l.length / 2) / l.length ∧ (l.sum + l.length / 2) / l.length ≤ hi := by
  have positive : 0 < l.length := List.length_pos_iff.2 hl
  have below : l.length * lo ≤ l.sum := by
    simpa using List.card_nsmul_le_sum l lo fun d hd => (h d hd).1
  have above : l.sum ≤ l.length * hi := by
    simpa using List.sum_le_card_nsmul l hi fun d hd => (h d hd).2
  constructor
  · rw [Nat.le_div_iff_mul_le positive, Nat.mul_comm]
    omega
  · rw [← Nat.lt_succ_iff, Nat.div_lt_iff_lt_mul positive, Nat.succ_mul, Nat.mul_comm hi]
    omega

theorem repeatAverage_of_ne_nil {p : Profile} {h : List Nat} (hh : h ≠ []) :
    repeatAverage p h =
      ((h.take (min p.repeatAvg h.length)).sum + min p.repeatAvg h.length / 2) / min p.repeatAvg h.length := by
  cases h with
  | nil => exact absurd rfl hh
  | cons d h => rfl

/-- Settles O17: the mean of the newest lengths lies where they do. -/
theorem repeatAverageIsTheRoundedMean : Obligations.RepeatAverageIsTheRoundedMean := by
  refine fun p h m => ⟨rfl, fun empty => by rw [empty]; rfl, repeatAverage_of_ne_nil, fun avg tol window => ?_⟩
  show _ ≤ repeatAverage p h ∧ repeatAverage p h ≤ _
  cases h with
  | nil => exact ⟨Nat.sub_le .., Nat.le_add_right ..⟩
  | cons d h =>
    have newest : ((d :: h).take (min p.repeatAvg (d :: h).length)).length = min p.repeatAvg (d :: h).length := by
      rw [List.length_take]
      omega
    rw [repeatAverage_of_ne_nil (List.cons_ne_nil d h)]
    have mean := rounded_mean_between (l := (d :: h).take (min p.repeatAvg (d :: h).length))
      (by rw [← List.length_pos_iff, newest, List.length_cons]; omega) fun x hx => window x (List.mem_of_mem_take hx)
    rwa [newest] at mean

end Sys2Proof.Machine
end

section
/-! The statements of chapter 3, of notices and frame requests, and of the Egress Unit's single operations. -/

namespace Sys2Proof

@[simp] theorem Quad.set_set {α : Type} (q : Quad α) (c : Ch) (v w : α) : (q.set c v).set c w = q.set c w := by
  cases c <;> rfl

end Sys2Proof

namespace Sys2Proof.Machine

/-! ## What is due, in terms of the parameters -/

theorem State.enabled_of_profile {s : State} {p : Profile} (h : s.profile = some p) (c : Ch) :
    s.enabled c = (p.ch.get c).enable := by rw [State.enabled, h]

theorem State.latencyDue_iff {s : State} {p : Profile} {c : Ch} {r : TrigRec} {rest : List TrigRec}
    (h : s.profile = some p) (hq : (s.tgn.get c).ptq = r :: rest) :
    s.latencyDue c = true ↔
      (p.ch.get c).enable = true ∧ ((p.latCmp * 2 ^ p.latScale : Nat) : Int) ≤ sdist r.p s.wpu.wmax := by
  simp only [State.latencyDue, h, hq, Bool.and_eq_true, decide_eq_true_eq]
  rfl

theorem State.pulseDue_iff {s : State} {c : Ch} {q : Pulse} (h : (s.tgn.get c).pulse = some q) :
    s.pulseDue c = true ↔ elapsed s.wpu.time q.t0 = q.width := by
  simp only [State.pulseDue, h, decide_eq_true_eq]

/-! ## Fires -/

/-- A fire is judged after the countdown is reloaded, where no head is at the latency limit (R36). -/
theorem takeFire_of_no_expiry {s : State} {p : Profile} {c : Ch} (h : s.profile = some p)
    (he : (p.ch.get c).enable = true) (hc : (s.tgn.get c).countdown = some 0) (hl : s.latencyDue c = false) :
    takeFire c s = judgeFire p c (s.setTgn c { s.tgn.get c with countdown := some p.lp }) := by
  have due : s.fireDue c = true := by rw [State.fireDue, State.enabled_of_profile h, he, hc]; rfl
  rw [takeFire, withProfile_of_some h]
  dsimp only
  rw [if_pos due, takeLatency_of_not_due hl]

/-- The checks of Table 3-3 do not read the countdown. -/
theorem State.skipReason_setCountdown (s : State) (c : Ch) (n : Option Nat) :
    (s.setTgn c { s.tgn.get c with countdown := n }).skipReason c = s.skipReason c := by
  simp only [State.skipReason, State.setTgn_lnb, State.setTgn_pfl, State.setTgn_tgn, State.setTgn_pins,
    Quad.get_set_self]

theorem State.skipReason_eq_none_iff (s : State) (c : Ch) :
    s.skipReason c = none ↔ (s.lnb.get c).state ≠ .fenced ∧ s.pfl.loader ≠ .loading ∧
      (s.tgn.get c).pulse = none ∧ s.pins.rdy.get c = true ∧ (s.tgn.get c).ptq.length < 32 := by
  unfold State.skipReason
  split_ifs with suppressed busy notReady full
  · simp only [false_iff]
    tauto
  · simp [Option.isSome_iff_ne_none.1 busy]
  · simp [notReady]
  · simp only [false_iff]
    exact fun ⟨_, _, _, _, room⟩ => absurd full (Nat.not_le.2 room)
  · simp only [not_or] at suppressed
    simp only [true_iff]
    exact ⟨suppressed.1, suppressed.2, Option.not_isSome_iff_eq_none.1 busy, by simpa using notReady,
      Nat.not_le.1 full⟩

/-- Settles O18: the checks of Table 3-3 choose between the emission and the skip. -/
theorem fireIsJudged : Obligations.FireIsJudged := by
  intro s p c released active enabled zero fresh
  have judged : exec (.fire c) s =
      .next (judgeFire p c (s.setTgn c { s.tgn.get c with countdown := some p.lp })) := by
    rw [← takeFire_of_no_expiry active enabled zero fresh]
    exact congrArg Host.Outcome.next (live_of_released (takeFire c) released)
  rw [judged, judgeFire, State.skipReason_setCountdown]
  refine ⟨fun unfenced loader idle rdy room => ?_, fun blocked => ?_⟩
  · rw [(s.skipReason_eq_none_iff c).2 ⟨unfenced, loader, idle, rdy, room⟩]
    simp only [emitTrigger, State.newRecord, State.horizon, posSub, State.setTgn, Quad.get_set_self, Quad.set_set]
  · cases reason : s.skipReason c with
    | none =>
      obtain ⟨unfenced, loader, idle, rdy, room⟩ := (s.skipReason_eq_none_iff c).1 reason
      rcases blocked with fenced | loading | busy | notReady | full
      · exact absurd fenced unfenced
      · exact absurd loading loader
      · exact absurd idle busy
      · exact absurd rdy (Bool.eq_false_iff.1 notReady)
      · exact absurd room (Nat.not_lt.2 full)
    | some _ => rfl

/-! ## Notices -/

theorem bumpEntry_of_not_contained {k : CountKind} {c : Ch} {w : Pos} :
    ∀ {es : List FrameEntry}, (∀ e ∈ es, e.contains w = false) → bumpEntry k c w es = es
  | [], _ => rfl
  | e :: es, h => by
    rw [bumpEntry, if_neg (Bool.eq_false_iff.1 (h e List.mem_cons_self)),
      bumpEntry_of_not_contained fun x hx => h x (List.mem_cons_of_mem _ hx)]

theorem bumpEntry_of_first {k : CountKind} {c : Ch} {w : Pos} {e : FrameEntry} {post : List FrameEntry}
    (he : e.contains w = true) :
    ∀ {pre : List FrameEntry}, (∀ x ∈ pre, x.contains w = false) →
      bumpEntry k c w (pre ++ e :: post) =
        pre ++ { e with counts := e.counts.set c ((e.counts.get c).bump k) } :: post
  | [], _ => if_pos he
  | x :: pre, h => by
    rw [List.cons_append, bumpEntry, if_neg (Bool.eq_false_iff.1 (h x List.mem_cons_self)),
      bumpEntry_of_first he fun y hy => h y (List.mem_cons_of_mem _ hy)]
    rfl

/-- Settles O19: `bumpEntry` goes to the first entry that contains the point. -/
theorem noticeCountsInTheContainingEntry : Obligations.NoticeCountsInTheContainingEntry := by
  refine fun k c w es => ⟨bumpEntry_of_not_contained, fun pre e post hes outside inside => ?_⟩
  rw [hes, bumpEntry_of_first inside outside]
  cases k <;> rfl

/-! ## Pulses and expiries -/

theorem expireHead_of_cons {s : State} {c : Ch} {r : TrigRec} {rest : List TrigRec}
    (h : (s.tgn.get c).ptq = r :: rest) :
    expireHead c s = evaluate [c] (fun _ => true) { s with
      tgn := s.tgn.set c { s.tgn.get c with ptq := rest }
      frt := { s.frt with entries := bumpEntry .expired c r.w s.frt.entries } } := by
  unfold expireHead
  rw [h]
  rfl

theorem expireHead_of_nil {s : State} {c : Ch} (h : (s.tgn.get c).ptq = []) : expireHead c s = s := by
  unfold expireHead
  rw [h]

/-- Settles O20: what is due is taken, and an expiry leaves the rest to the completion rule. -/
theorem pulseEndAndLatencyExpiry : Obligations.PulseEndAndLatencyExpiry := by
  intro s c released
  refine ⟨fun q pulse => ⟨fun expired => ?_, fun running => ?_⟩, fun p r rest active enabled queue old => ?_⟩
  · have due := (State.pulseDue_iff pulse).2 expired
    exact congrArg Host.Outcome.next ((live_of_released (takePulseEnd c) released).trans (if_pos due))
  · have notDue := Bool.eq_false_iff.2 (mt (State.pulseDue_iff pulse).1 running)
    exact congrArg Host.Outcome.next
      ((live_of_released (takePulseEnd c) released).trans (takePulseEnd_of_not_due notDue))
  · have due := (State.latencyDue_iff active queue).2 ⟨enabled, old⟩
    have taken : exec (.latencyExpiry c) s = .next (expireHead c s) :=
      congrArg Host.Outcome.next ((live_of_released (takeLatency c) released).trans (if_pos due))
    have blocks := evaluate_within [c] (fun _ => true) { s with
      tgn := s.tgn.set c { s.tgn.get c with ptq := rest }
      frt := { s.frt with entries := bumpEntry .expired c r.w s.frt.entries } }
    rw [taken, expireHead_of_cons queue]
    exact ⟨_, rfl, blocks.tgn (by decide), rfl, blocks.mkt (by decide), blocks.lnb (by decide),
      blocks.wpu (by decide), blocks.egu (by decide), blocks.pfl (by decide)⟩

/-! ## Frame requests -/

theorem FrameEntry.sdist_nonneg_of_contains {e : FrameEntry} {w : Pos} (h : e.contains w = true) :
    0 ≤ sdist e.ms w := by
  rw [FrameEntry.contains, Bool.and_eq_true] at h
  exact (atOrPast_iff _ _).1 h.1

theorem State.frameRequest_of_first {s : State} {p : Profile} {w : Pos} {pre post : List FrameEntry} {e : FrameEntry}
    (hes : s.frt.entries = pre ++ e :: post) (hpre : ∀ x ∈ pre, x.contains w = false) (he : e.contains w = true) :
    s.frameRequest p w =
      if p.rows ≤ (sdist e.ms w).toNat / p.lp then .refused .overlong
      else .placed e.serial e.slot ((sdist e.ms w).toNat / p.lp) := by
  have found : s.frt.entries.find? (·.contains w) = some e := by
    rw [hes, List.find?_append, List.find?_eq_none.2 fun x hx => Bool.eq_false_iff.1 (hpre x hx), Option.none_or,
      List.find?_cons_of_pos (p := fun x : FrameEntry => x.contains w) he]
  rw [State.frameRequest, found]

/-- Settles O26: the search finds the first entry that contains the web point. -/
theorem frameRequestChoosesFrameAndRow : Obligations.FrameRequestChoosesFrameAndRow := by
  refine fun s p w => ⟨fun outside => ?_, fun pre e post hes outside inside =>
    ⟨FrameEntry.sdist_nonneg_of_contains inside, State.frameRequest_of_first hes outside inside⟩⟩
  rw [State.frameRequest, List.find?_eq_none.2 fun e he => Bool.eq_false_iff.1 (outside e he)]

end Sys2Proof.Machine
end

section
/-! The statements of chapter 7's single operations, and the admission of a report group. -/

namespace Sys2Proof.Machine

/-! ## Flow control -/

/-- The flow control is re-evaluated from what the state holds beside it. -/
theorem refreshFlow_eq (s : State) :
    refreshFlow s = { s with egu := { s.egu with flowOpen := (refreshFlow s).flowMayOpen } } := rfl

theorem one_le_freeEntries_iff (s : State) : 1 ≤ s.freeEntries ↔ s.egu.egress.length < 64 := by
  unfold State.freeEntries Config.egressCapacity
  omega

/-! ## Requests from the grabber -/

theorem exec_grabberRequestAccept_of_ready {s : State} {r : Request} (h : s.ready = true) (hr : r.fromGrabber = true) :
    exec (.grabberRequestAccept r) s = .next (acceptRequest r s) := by
  rw [← outside_of_ready (acceptRequest r) h]
  exact if_pos hr

/-- Settles O31: an idle ingress and an open flow control take the request, else nothing happens. -/
theorem grabberRequestIsAccepted : Obligations.GrabberRequestIsAccepted := by
  refine fun s r => ⟨fun ready shaped idle flowing => ?_, fun ready shaped blocked => ?_,
    fun malformed => if_neg (Bool.eq_false_iff.1 malformed)⟩
  · rw [exec_grabberRequestAccept_of_ready ready shaped, acceptRequest, if_pos (by rw [idle, flowing]; rfl)]
    rfl
  · rw [exec_grabberRequestAccept_of_ready ready shaped, acceptRequest, if_neg]
    rw [Bool.and_eq_true, Option.isNone_iff_eq_none]
    rintro ⟨idle, flowing⟩
    rcases blocked with busy | stopped
    · rw [idle] at busy
      exact absurd busy Bool.false_ne_true
    · exact Bool.eq_false_iff.1 stopped flowing

theorem Ingress.after_eq (g : Ingress) (n : Nat) :
    g.after n = if g.data.drop n = [] then none else some { g with addr := g.addr + n, data := g.data.drop n } := by
  simp only [Ingress.after, List.isEmpty_iff]

/-- Settles O32: one entry joins the tail, and the ingress goes on behind it. -/
theorem passThroughIsAdmittedUnchanged : Obligations.PassThroughIsAdmittedUnchanged := by
  intro s g n ready granted part
  refine ⟨_, congrArg Host.Outcome.next (outside_of_ready admitPass ready), ?_⟩
  unfold admitPass
  simp only [granted, part, Ingress.after_eq]
  exact refreshFlow_eq _

/-! ## The arbiter -/

theorem frameGrant_of_room {s : State} {i : FrameItem} {rest : List FrameItem} (h : s.frt.writeList = i :: rest)
    (up : s.egu.hostUp = true) (room : i.writes.length + s.egu.egress.length ≤ 64) : s.frameGrant = some i := by
  have free : i.writes.length ≤ s.freeEntries := by
    unfold State.freeEntries Config.egressCapacity
    omega
  rw [State.frameGrant, h]
  simp only [up, free, decide_true, Bool.and_self, if_true]

theorem admitFrameItem_of_grant {s : State} {i : FrameItem} (h : s.frameGrant = some i) :
    admitFrameItem s = refreshFlow (pushEgress (i.writes.map (·.toEgress .frame))
      { s with frt := { s.frt with writeList := s.frt.writeList.drop 1 } }) := by
  rw [admitFrameItem, h]

/-- Without a grant the report writer's claims do nothing. -/
theorem admitRecord_of_no_grant {s : State} (h : s.reportGrant = false) : admitRecord s = s := by
  unfold admitRecord
  split
  · rfl
  · split
    · rfl
    · exact if_neg (Bool.eq_false_iff.1 h)

theorem admitMessage_of_no_grant {s : State} (h : s.reportGrant = false) : admitMessage s = s := by
  unfold admitMessage
  split
  · rfl
  · split
    · exact if_neg (Bool.eq_false_iff.1 h)
    · rfl

/-- Without a grant the ingress's claims do nothing. -/
theorem admitPiece_of_no_grant {s : State} (h : s.ingressGrant = none) : admitPiece s = s := by
  unfold admitPiece
  rw [h]
  split
  · contradiction
  · rfl

theorem admitPass_of_no_grant {s : State} (h : s.ingressGrant = none) : admitPass s = s := by
  rw [admitPass, h]

theorem ingressGrant_eq_none {s : State} (h : s.frt.writeList ≠ [] ∨ s.rpu.writer ≠ none) : s.ingressGrant = none := by
  refine Option.eq_none_iff_forall_ne_some.2 fun g granted => ?_
  obtain ⟨-, empty, idle, -⟩ := ingressGrant_eq_some granted
  exact h.elim (fun waiting => waiting empty) (fun busy => busy idle)

theorem reportGrant_eq_false {s : State} (h : s.frt.writeList ≠ []) : s.reportGrant = false := by
  refine Bool.eq_false_iff.2 fun granted => ?_
  obtain ⟨-, empty, -⟩ := (reportGrant_iff s).1 granted
  exact h empty

/-- Settles O33: the grants of Table 7-3 exclude the claims below a waiting one. -/
theorem frameItemsComeFirst : Obligations.FrameItemsComeFirst := by
  intro s ready
  have at_once {f : State → State} (h : f s = s) : Host.Outcome.next (outside f s) = (.next s : Answer) :=
    congrArg _ ((outside_of_ready f ready).trans h)
  refine ⟨fun i rest waiting => ⟨fun up room => ?_, ?_⟩, fun g _ writing => ?_⟩
  · refine ⟨_, congrArg Host.Outcome.next (outside_of_ready admitFrameItem ready), ?_⟩
    rw [admitFrameItem_of_grant (frameGrant_of_room waiting up room), waiting]
    exact refreshFlow_eq _
  · have behind : s.frt.writeList ≠ [] := by rw [waiting]; exact List.cons_ne_nil i rest
    have noIngress := ingressGrant_eq_none (.inl behind)
    have noReport := reportGrant_eq_false behind
    exact ⟨at_once (admitRecord_of_no_grant noReport), at_once (admitMessage_of_no_grant noReport),
      at_once (admitPiece_of_no_grant noIngress), at_once (admitPass_of_no_grant noIngress)⟩
  · have noIngress := ingressGrant_eq_none (s := s) (.inr (by rw [writing]; exact Option.some_ne_none g))
    exact ⟨at_once (admitPiece_of_no_grant noIngress), at_once (admitPass_of_no_grant noIngress)⟩

/-! ## The queues -/

/-- Settles O34: the head leaves, the tail takes, and the flow control follows the free entries. -/
theorem queuesAreFirstInFirstOut : Obligations.QueuesAreFirstInFirstOut := by
  refine fun s ready => ⟨fun e rest up queue => ?_, fun r up room => ?_, fun r rest running trained queue => ?_⟩
  · refine ⟨_, congrArg Host.Outcome.next (outside_of_ready sendEgress ready), ?_⟩
    rw [sendEgress, if_pos up, queue]
    exact refreshFlow_eq _
  · refine congrArg Host.Outcome.next ((outside_of_ready (takeDownstream r) ready).trans (if_pos ?_))
    rw [up, Bool.true_and]
    exact decide_eq_true room
  · refine congrArg Host.Outcome.next ((outside_of_ready sendDownstream ready).trans ?_)
    rw [sendDownstream, if_pos (by rw [running, trained]; rfl), queue]
    rfl

/-! ## The links -/

theorem hostLinkUp_eq (s : State) :
    hostLinkUp s = { s with egu := { s.egu with
      hostUp := true, hostRisen := true
      grabberRunning := s.egu.grabberRunning || s.pfl.loader != .loadingInitial
      flowOpen := (hostLinkUp s).flowMayOpen } } := by
  unfold hostLinkUp releaseGrabber
  by_cases started : s.pfl.loader = .loadingInitial
  · simp only [started, bne_self_eq_false, Bool.and_false, Bool.false_eq_true, if_false, Bool.or_false]
    exact refreshFlow_eq _
  · simp only [bne_iff_ne.2 started, Bool.and_self, if_true, Bool.or_true]
    exact refreshFlow_eq _

/-- Settles O35: each link event sets its link, and the flow control follows. -/
theorem linkEvents : Obligations.LinkEvents := by
  refine fun s ready => ⟨fun c event down => ?_, fun running => ?_, fun up trained => ?_⟩
  · suffices rise : exec c s = .next (hostLinkUp s) from ⟨_, rise, hostLinkUp_eq s⟩
    rcases event with ⟨rfl, fresh⟩ | ⟨rfl, risen⟩
    · exact congrArg Host.Outcome.next
        ((outside_of_ready hostFirstUp ready).trans (if_neg (by rw [down, fresh]; exact Bool.false_ne_true)))
    · exact congrArg Host.Outcome.next
        ((outside_of_ready hostReturn ready).trans (if_pos (by rw [down, risen]; rfl)))
  · refine ⟨_, congrArg Host.Outcome.next (outside_of_ready grabberTrained ready), ?_⟩
    rw [grabberTrained, if_pos running]
    exact refreshFlow_eq _
  · refine congrArg Host.Outcome.next ((outside_of_ready grabberLost ready).trans ?_)
    rw [grabberLost, if_pos (by rw [up, trained]; rfl)]
    simp only [refreshFlow, State.flowMayOpen, Bool.and_false]

/-! ## Report groups at the arbiter -/

theorem WriteGroup.rest_eq (g : WriteGroup) :
    g.rest = if g.records = [] ∧ g.message = none then none else some g := by
  simp only [WriteGroup.rest, Bool.and_eq_true, List.isEmpty_iff, Option.isNone_iff_eq_none]

/-- Settles O39: the record or message at the front joins the tail, and the rest waits. -/
theorem recordsAndMessageAreAdmitted : Obligations.RecordsAndMessageAreAdmitted := by
  intro s g ready writing up none_waits room
  have granted := (reportGrant_iff s).2 ⟨up, none_waits, (one_le_freeEntries_iff s).2 room⟩
  refine ⟨fun w rest records => ?_, fun w records message => ?_⟩
  · refine ⟨_, congrArg Host.Outcome.next (outside_of_ready admitRecord ready), ?_⟩
    unfold admitRecord
    simp only [writing, records, granted, if_true, WriteGroup.rest_eq]
    exact refreshFlow_eq _
  · refine ⟨_, congrArg Host.Outcome.next (outside_of_ready admitMessage ready), ?_⟩
    unfold admitMessage
    simp only [writing, records, message, granted, if_true]
    exact refreshFlow_eq _

end Sys2Proof.Machine
end

section
/-! The statements of chapters 8 and 9: reports at the queue, report groups, STATUS events, speed, conditions, CLEAR. -/

namespace Sys2Proof.Machine

/-! ## Report events at the Report Unit -/

/-- The report of an event, stamped as R138 says. -/
def State.stamp (s : State) (p : Profile) (ev : ReportEvent) : Report :=
  { event := ev, priority := p.priority ev, time := s.wpu.time, wmaxLow := s.wpu.wmax.setWidth 32 }

theorem admitReport_of_no_profile {ev : ReportEvent} {s : State} (h : s.profile = none) :
    admitReport ev s = (s, false) := by rw [admitReport, h]

theorem admitReport_of_folded {ev : ReportEvent} {s : State} (h : s.folds ev = true) : admitReport ev s = (s, false) := by
  unfold admitReport
  split
  · rfl
  · exact if_pos h

theorem admitReport_of_unfolded {ev : ReportEvent} {s : State} {p : Profile} (h : s.profile = some p)
    (hf : s.folds ev = false) :
    admitReport ev s =
      if p.reportThreshold < p.priority ev then joinQueue (s.stamp p ev) (s.setFold ev) else (s.setFold ev, false) := by
  rw [admitReport, h]
  exact if_neg (Bool.eq_false_iff.1 hf)

/-- The threshold's judgement of an event that is not folded (R139). -/
theorem admitReport_by_threshold {ev : ReportEvent} {s : State} {p : Profile} (h : s.profile = some p)
    (hf : s.folds ev = false) :
    (p.priority ev ≤ p.reportThreshold → admitReport ev s = (s.setFold ev, false)) ∧
      (p.reportThreshold < p.priority ev → admitReport ev s = joinQueue (s.stamp p ev) (s.setFold ev)) := by
  rw [admitReport_of_unfolded h hf]
  exact ⟨fun low => if_neg (Nat.not_lt.2 low), fun high => if_pos high⟩

/-- Only a LINE_FAULT folds (R140). -/
theorem State.folds_of_not_lineFault {ev : ReportEvent} (s : State) (h : ∀ c kind i, ev ≠ .lineFault c kind i) :
    s.folds ev = false ∧ s.setFold ev = s := by
  cases ev with
  | lineFault c kind i => exact absurd rfl (h c kind i)
  | _ => exact ⟨rfl, rfl⟩

theorem raiseReport_of_not_dropped {ev : ReportEvent} {s : State} (h : (admitReport ev s).2 = false) :
    raiseReport ev s = (admitReport ev s).1 := if_neg (Bool.eq_false_iff.1 h)

theorem raiseReportsDropped_sets (s : State) : (raiseReportsDropped s).sau.flags.reportsDropped = true := by
  unfold raiseReportsDropped
  split
  · assumption
  · rw [admitReport_sau]
    rfl

/-- A raised event leaves REPORTS_DROPPED, but for a drop (R142). -/
theorem raiseReport_reportsDropped (ev : ReportEvent) (s : State) :
    (raiseReport ev s).sau.flags.reportsDropped = (s.sau.flags.reportsDropped || (admitReport ev s).2) := by
  cases dropped : (admitReport ev s).2 with
  | false => rw [raiseReport_of_not_dropped dropped, admitReport_sau, Bool.or_false]
  | true =>
    rw [raiseReport, if_pos dropped, Bool.or_true]
    exact raiseReportsDropped_sets _

/-! ## The report queue -/

theorem joinQueue_of_room {r : Report} {s : State} (h : s.rpu.queue.length < 16) :
    joinQueue r s = ({ s with rpu := { s.rpu with queue := insertReport r s.rpu.queue } }, false) := if_pos h

/-- A full queue, its newest report of the lowest priority named (R142). -/
theorem joinQueue_of_full {r last : Report} {q : List Report} {s : State} (h : s.rpu.queue = q ++ [last])
    (hl : q.length = 15) :
    joinQueue r s =
      if last.priority < r.priority then
        ({ s with rpu := { s.rpu with queue := insertReport r q, dropped := min 65535 (s.rpu.dropped + 1) } }, true)
      else ({ s with rpu := { s.rpu with dropped := min 65535 (s.rpu.dropped + 1) } }, true) := by
  have full : ¬s.rpu.queue.length < Config.reportCapacity := by
    rw [h, List.length_append, hl]
    exact Nat.lt_irrefl 16
  rw [joinQueue, if_neg full, h, List.getLast?_append_cons, List.dropLast_append_cons]
  simp only [List.getLast?_singleton, List.dropLast_singleton, List.append_nil]
  rfl

/-- Settles O37: the stages of `admitReport`, then the two cases of the queue. -/
theorem reportsJoinInOrderOfPriority : Obligations.ReportsJoinInOrderOfPriority := by
  refine ⟨fun ev s => ⟨admitReport_of_no_profile, fun p active => ?_, raiseReport_of_not_dropped,
    raiseReport_reportsDropped ev s⟩, fun r s => ⟨fun room hi lo queue above below => ?_, fun q last queue full =>
      ⟨fun lowest hi lo rest above below => ?_, fun low => ?_⟩⟩⟩
  · intro priority report passed
    have named : priority = p.priority ev := by cases ev <;> rfl
    have stamped : report = s.stamp p ev := by simp only [report, named, State.stamp]
    have judged {u : State} (hf : s.folds ev = false) (hu : s.setFold ev = u) : passed u := by
      simp only [passed, named, stamped, ← hu]
      exact admitReport_by_threshold active hf
    refine ⟨fun other => ?_, ?_⟩
    · obtain ⟨unfolded, kept⟩ := s.folds_of_not_lineFault other
      exact judged unfolded kept
    · rintro c kind i rfl
      refine ⟨fun set => admitReport_of_folded ?_, fun clear => judged ?_ rfl⟩
      · exact List.contains_iff_mem.2 set
      · exact Bool.eq_false_iff.2 (mt List.contains_iff_mem.1 clear)
  · rw [joinQueue_of_room room, queue, insertReport_append above below]
  · rw [joinQueue_of_full queue full, if_pos lowest, rest, insertReport_append above below]
  · rw [joinQueue_of_full queue full, if_neg (Nat.not_lt.2 low)]

/-! ## Report groups -/

/-- The fields of a record that its seq and the dropped count fill (Table 11-7). -/
theorem recordBytes_fields (seq : BitVec 32) (priority dropped : Nat) (b : RecordBody) :
    (recordBytes seq priority dropped b).take 4 = leBytes 4 seq.toNat ∧
      ((recordBytes seq priority dropped b).drop 6).take 2 = leBytes 2 dropped := by
  unfold recordBytes
  constructor
  · simp only [List.append_assoc]
    exact List.take_left' (leBytes_length ..)
  · rw [List.append_assoc, List.drop_left' (by simp only [List.length_append, leBytes_length])]
    exact List.take_left' (leBytes_length ..)

theorem formGroup_records_length (p : Profile) (r : Report) (s : State) :
    (formGroup p r s).records.length = if r.event = .status then 9 else 1 := by
  simp only [formGroup, List.length_map, List.length_zipIdx, groupBodies_length]

/-- The record at place `j` of a group (R144, R145). -/
theorem formGroup_record {p : Profile} {r : Report} {s : State} {j : Nat} {w : Write}
    (h : (formGroup p r s).records[j]? = some w) :
    let q := s.rpu.seq + BitVec.ofNat 32 j
    ∃ b ∈ groupBodies s r,
      w = { addr := recordAddr p q, data := recordBytes q r.priority (if j = 0 then s.rpu.dropped else 0) b } := by
  simp only [formGroup, List.getElem?_map, List.getElem?_zipIdx, Option.map_map, Nat.zero_add,
    Option.map_eq_some_iff, Function.comp_apply] at h
  obtain ⟨b, hb, rfl⟩ := h
  exact ⟨b, List.mem_of_getElem? hb, rfl⟩

theorem formReportGroup_of_due {s : State} {p : Profile} {r : Report} {rest : List Report} (hp : s.profile = some p)
    (hw : s.rpu.writer = none) (hq : s.rpu.queue = r :: rest) (up : s.egu.hostUp = true) :
    formReportGroup s = { s with rpu := { s.rpu with
      queue := rest, writer := some (formGroup p r s)
      seq := s.rpu.seq + BitVec.ofNat 32 (formGroup p r s).records.length, dropped := 0 } } := by
  unfold formReportGroup
  rw [hp, hw, hq]
  exact if_pos up

/-- Settles O38: the group is `formGroup` of the head report. -/
theorem reportGroupIsFormed : Obligations.ReportGroupIsFormed := by
  intro s p r rest released active idle queue up
  refine ⟨formGroup p r s, ?_, formGroup_records_length p r s, fun j w hw => ?_, rfl⟩
  · rw [← formReportGroup_of_due active idle queue up]
    exact congrArg Host.Outcome.next (live_of_released formReportGroup released)
  · obtain ⟨b, hb, rfl⟩ := formGroup_record hw
    obtain ⟨number, dropped⟩ := recordBytes_fields (s.rpu.seq + BitVec.ofNat 32 j) r.priority
      (if j = 0 then s.rpu.dropped else 0) b
    exact ⟨rfl, (recordBytes_length ..).trans (by rw [groupBodies_tail s r b hb]), number, dropped⟩

/-! ## STATUS events -/

/-- Settles O40: the folding is cleared, and the event is judged as any other. -/
theorem statusEventClearsTheFolding : Obligations.StatusEventClearsTheFolding := by
  intro s p n released active due
  have taken : exec .statusEvent s =
      .next (raiseReport .status { s with rpu := { s.rpu with folded := [], statusDue := n } }) := by
    refine congrArg Host.Outcome.next ((live_of_released takeStatus released).trans ?_)
    rw [takeStatus, if_neg (by rw [due]; exact Nat.succ_ne_zero n), due]
    rfl
  obtain ⟨low, high⟩ := admitReport_by_threshold (ev := .status)
    (s := { s with rpu := { s.rpu with folded := [], statusDue := n } }) active rfl
  rw [taken]
  refine ⟨fun discarded => ?_, fun passed room => ?_⟩
  · have admitted := low discarded
    rw [raiseReport_of_not_dropped (by rw [admitted]), admitted]
    rfl
  · have admitted := (high passed).trans (joinQueue_of_room room)
    rw [raiseReport_of_not_dropped (by rw [admitted]), admitted]
    rfl

/-! ## Speed -/

/-- What a comparison with the speed limits does to the SAU (R155). -/
theorem compareSpeed_sau (p : Profile) (v : Nat) (s : State) :
    Sau.SameSpeed s.sau (compareSpeed p v s).sau ∧
      (compareSpeed p v s).sau.cond = { s.sau.cond with
        speedHigh := decide (p.spdHi * 16 < v), speedLow := decide (v < p.spdLo * 16) } := by
  obtain ⟨speed, cond, -⟩ := deliver_flags .speedHigh (decide (p.spdHi * 16 < v)) s
  obtain ⟨speed', cond', -⟩ := deliver_flags .speedLow (decide (v < p.spdLo * 16))
    (deliver .speedHigh (decide (p.spdHi * 16 < v)) s)
  exact ⟨speed.trans speed', by rw [compareSpeed, cond', cond]; rfl⟩

/-- A comparison that is made or not. -/
theorem compareSpeed_if_sau (p : Profile) (v : Nat) (compared : Bool) (s : State) :
    Sau.SameSpeed s.sau (if compared then compareSpeed p v s else s).sau ∧
      (if compared then compareSpeed p v s else s).sau.cond = if compared then { s.sau.cond with
        speedHigh := decide (p.spdHi * 16 < v), speedLow := decide (v < p.spdLo * 16) } else s.sau.cond := by
  cases compared with
  | false => exact ⟨.refl _, rfl⟩
  | true => exact compareSpeed_sau p v s

theorem takeInterval_of_due {s : State} {p : Profile} {t0 : Time} (hp : s.profile = some p)
    (ht : s.sau.speedT0 = some t0) (he : elapsed s.wpu.time t0 = p.speedInterval) :
    takeInterval s =
      let t := { s with sau := { s.sau with
        raw := 0, blockSum := s.sau.blockSum + s.sau.raw, blockCount := s.sau.blockCount + 1
        speedT0 := some s.wpu.time } }
      if !p.slowSpeed then compareSpeed p s.sau.raw t else t := by
  have due : s.intervalDue = true := by
    rw [State.intervalDue, hp, ht]
    exact decide_eq_true he
  rw [takeInterval, withProfile_of_some hp]
  dsimp only
  rw [if_pos due]
  cases p.slowSpeed <;> rfl

theorem takeBlockEnd_of_due {s : State} {p : Profile} (hp : s.profile = some p) (hb : p.spdAvg ≤ s.sau.blockCount) :
    takeBlockEnd s =
      let v := (s.sau.blockSum + p.spdAvg / 2) / p.spdAvg
      let t := { s with sau := { s.sau with speedAvg := v, blockSum := 0, blockCount := 0 } }
      if p.slowSpeed then compareSpeed p v t else t := by
  have due : s.blockDue = true := by
    rw [State.blockDue, hp]
    exact decide_eq_true hb
  rw [takeBlockEnd, withProfile_of_some hp]
  exact if_pos due

/-- Settles O41: the sample and the average are set, and the comparison touches the conditions alone. -/
theorem speedSamplesAndBlocks : Obligations.SpeedSamplesAndBlocks := by
  intro s p released active
  refine ⟨fun t0 running expired => ?_, fun full => ?_⟩
  · have blocks := takeInterval_within s
    refine ⟨_, congrArg Host.Outcome.next (live_of_released takeInterval released), ?_⟩
    rw [takeInterval_of_due active running expired] at blocks ⊢
    obtain ⟨speed, cond⟩ := compareSpeed_if_sau p s.sau.raw (!p.slowSpeed) { s with sau := { s.sau with
      raw := 0, blockSum := s.sau.blockSum + s.sau.raw, blockCount := s.sau.blockCount + 1
      speedT0 := some s.wpu.time } }
    refine ⟨speed.raw, speed.blockSum, speed.blockCount, speed.speedT0, speed.speedAvg, cond.trans ?_,
      blocks.mkt (by decide), blocks.tgn (by decide), blocks.lnb (by decide), blocks.frt (by decide),
      blocks.egu (by decide), blocks.wpu (by decide), blocks.pfl (by decide)⟩
    cases p.slowSpeed <;> rfl
  · have blocks := takeBlockEnd_within s
    refine ⟨_, congrArg Host.Outcome.next (live_of_released takeBlockEnd released), ?_⟩
    rw [takeBlockEnd_of_due active full] at blocks ⊢
    obtain ⟨speed, cond⟩ := compareSpeed_if_sau p ((s.sau.blockSum + p.spdAvg / 2) / p.spdAvg) p.slowSpeed
      { s with sau := { s.sau with
        speedAvg := (s.sau.blockSum + p.spdAvg / 2) / p.spdAvg, blockSum := 0, blockCount := 0 } }
    exact ⟨⟨speed.speedAvg, cond⟩, speed.blockSum, speed.blockCount, speed.raw, speed.speedT0,
      blocks.mkt (by decide), blocks.tgn (by decide), blocks.lnb (by decide), blocks.frt (by decide),
      blocks.egu (by decide), blocks.wpu (by decide), blocks.pfl (by decide)⟩

/-! ## Conditions -/

/-- Settles O42: the clauses of `deliver_flags`, read for the condition's own flag. -/
theorem conditionFlagsFollowOrLatch : Obligations.ConditionFlagsFollowOrLatch := by
  intro c holds s
  obtain ⟨-, cond, raised, lowered, kept, others⟩ := deliver_flags c holds s
  refine ⟨cond, fun follows => ?_, fun latched other => ?_, others⟩
  · cases holds with
    | true => exact raised rfl
    | false =>
      have transparent : (s.alertLatch && c != .profileFallback) = false := by
        rcases follows with off | rfl
        · rw [off, Bool.false_and]
        · rw [bne_self_eq_false, Bool.and_false]
      rw [lowered rfl transparent, FlagSet.get_put_self]
  · cases holds with
    | true => exact raised rfl
    | false => rw [kept rfl (by rw [latched, bne_iff_ne.2 other]; rfl), Bool.false_or]

/-! ## CLEAR -/

/-- A condition delivered as not holding raises no report, and touches the condition's own flag alone. -/
theorem deliver_false (c : Cond) (s : State) :
    (deliver c false s).rpu = s.rpu ∧ ∀ f, f ≠ c.flag → (deliver c false s).sau.flags.get f = s.sau.flags.get f := by
  unfold deliver
  simp only [Bool.false_eq_true, if_false]
  split
  · exact ⟨rfl, fun _ _ => rfl⟩
  · exact ⟨rfl, fun f hf => FlagSet.get_put_of_ne _ _ hf⟩

/-- The channels' exit from FENCED, CHANNEL_FENCED apart (R70). -/
def leaveFences (s : State) : State :=
  s.forChannels fun c t => if (t.lnb.get c).state == .fenced then t.setLnb c (t.lnb.get c).leaveFence else t

theorem exitFences_eq (s : State) :
    exitFences s = if s.anyFenced then deliver .channelFenced false (leaveFences s) else s := rfl

theorem leaveFences_within (s : State) : Within [.lnb] s (leaveFences s) :=
  forChannels_within (fun _ _ => .ite (fun _ => within_lnb (by decide) ..) fun _ => .refl ..) s

/-- What the exit leaves of the Report Unit and the SAU. -/
theorem exitFences_keeps (s : State) :
    (exitFences s).rpu = s.rpu ∧ Sau.SameSpeed s.sau (exitFences s).sau ∧
      ∀ f, f ≠ .channelFenced → (exitFences s).sau.flags.get f = s.sau.flags.get f := by
  have left := leaveFences_within s
  rw [exitFences_eq]
  split
  · obtain ⟨rpu, flags⟩ := deliver_false .channelFenced (leaveFences s)
    obtain ⟨speed, -⟩ := deliver_flags .channelFenced false (leaveFences s)
    rw [left.rpu (by decide)] at rpu
    rw [left.sau (by decide)] at flags speed
    exact ⟨rpu, speed, flags⟩
  · exact ⟨rfl, .refl _, fun _ _ => rfl⟩

theorem tick_setClearPin_of_ready {s : State} (l : Bool) (h : s.ready = true) :
    tick (s.setClearPin l) = sampleClear l (s.setClearPin l).addMicrosecond := by
  obtain ⟨released, -⟩ := State.ready_settled h
  simp only [State.ready, Bool.and_eq_true] at h
  exact tick_of_settled released (settle_of_quiet h.2)

theorem sampleClear_of_pulse {s : State} (h : s.sau.clearRef = false) :
    sampleClear true s = takeClearPulse { s with sau := { s.sau with clearRef := true } } :=
  if_pos (by rw [h]; rfl)

theorem State.clearedFlags_events (s : State) :
    s.clearedFlags.lockLost = false ∧ s.clearedFlags.encoder = false ∧ s.clearedFlags.reportsDropped = false ∧
      s.clearedFlags.profileFallback = s.sau.flags.profileFallback := by
  unfold State.clearedFlags
  split <;> exact ⟨rfl, rfl, rfl, rfl⟩

theorem State.clearedFlags_of_latched {s : State} (h : s.alertLatch = true) :
    s.clearedFlags = { FlagSet.none with profileFallback := s.sau.flags.profileFallback } := if_pos h

theorem State.clearedFlags_of_transparent {s : State} (h : s.alertLatch = false) :
    s.clearedFlags = { s.sau.flags with lockLost := false, encoder := false, reportsDropped := false } :=
  if_neg (Bool.eq_false_iff.1 h)

/-- The flags after a CLEAR pulse: those that stay, and CHANNEL_FENCED by the fences' exit (R70, R159). -/
theorem takeClearPulse_flags (s : State) :
    (∀ f, f ≠ .channelFenced → (takeClearPulse s).sau.flags.get f = s.clearedFlags.get f) ∧
      (takeClearPulse s).sau.flags.channelFenced = (s.clearedFlags.channelFenced && (!s.anyFenced || s.alertLatch)) := by
  obtain ⟨-, -, flags⟩ := exitFences_keeps (evalAlert { s with sau := { s.sau with flags := s.clearedFlags } })
  exact ⟨flags, (exitFences_sau _).2⟩

theorem takeClearPulse_within_channels (s : State) : Within [.lnb, .sau] s (takeClearPulse s) := by
  have cleared : Within [.lnb, .sau] s (evalAlert { s with sau := { s.sau with flags := s.clearedFlags } }) :=
    within_sau (by decide) ..
  have w := exitFences_within (evalAlert { s with sau := { s.sau with flags := s.clearedFlags } })
  obtain ⟨rpu, -⟩ := exitFences_keeps (evalAlert { s with sau := { s.sau with flags := s.clearedFlags } })
  have left : Within [.lnb, .sau] _ (takeClearPulse s) :=
    { inReset := fun _ => w.inReset (by decide), pins := fun _ => w.pins (by decide)
      wpu := fun _ => w.wpu (by decide), mkt := fun _ => w.mkt (by decide), tgn := fun _ => w.tgn (by decide)
      lnb := fun n => absurd (by decide) n, frt := fun _ => exitFences_frt _, egu := fun _ => w.egu (by decide)
      rpu := fun _ => rpu, sau := fun n => absurd (by decide) n, pfl := fun _ => w.pfl (by decide)
      pending := fun _ => w.pending (by decide) }
  exact cleared.trans left

/-- Settles O43: the sample, and with a pulse the cleared flags and the fences' exit. -/
theorem clearPulse : Obligations.ClearPulse := by
  intro s l ready
  have sampled : exec (.clearPulse l) s = .next (sampleClear l (s.setClearPin l).addMicrosecond) :=
    congrArg Host.Outcome.next (tick_setClearPin_of_ready l ready)
  rw [sampled]
  refine ⟨fun quiet => ?_, ?_⟩
  · rw [sampleClear_of_no_pulse (by exact quiet)]
    rfl
  · rintro rfl reference
    rw [sampleClear_of_pulse (by exact reference)]
    generalize hu : ({ (s.setClearPin true).addMicrosecond with
      sau := { (s.setClearPin true).addMicrosecond.sau with clearRef := true } } : State) = u
    have sau : u.sau = { s.sau with clearRef := true } := by rw [← hu]; rfl
    have lnb : u.lnb = s.lnb := by rw [← hu]; rfl
    have latch : u.alertLatch = s.alertLatch := by rw [← hu]; rfl
    have fenced : u.anyFenced = s.anyFenced := by rw [← hu]; rfl
    have blocks := takeClearPulse_within_channels u
    obtain ⟨flags, channelFenced⟩ := takeClearPulse_flags u
    obtain ⟨lockLost, encoder, dropped, fallback⟩ := u.clearedFlags_events
    obtain ⟨-, speed, -⟩ := exitFences_keeps (evalAlert { u with sau := { u.sau with flags := u.clearedFlags } })
    obtain ⟨cond, -⟩ := exitFences_sau (evalAlert { u with sau := { u.sau with flags := u.clearedFlags } })
    have alert : AlertInv (takeClearPulse u) := alertInv_keptByReports.exitFences _ (evalAlert_alertInv _)
    refine ⟨_, rfl, speed.clearRef.trans (by rw [← hu]; rfl), (flags .lockLost (by decide)).trans lockLost,
      (flags .encoder (by decide)).trans encoder, (flags .reportsDropped (by decide)).trans dropped,
      (flags .profileFallback (by decide)).trans (fallback.trans (by rw [sau])), fun latched => ?_,
      fun transparent => ?_, ?_, fun c => ?_, alert, ?_⟩
    · have cleared := State.clearedFlags_of_latched (latch.trans latched)
      rw [cleared] at flags channelFenced
      exact ⟨flags .speedHigh (by decide), flags .speedLow (by decide), flags .repeatLong (by decide),
        flags .repeatShort (by decide), channelFenced⟩
    · have cleared := State.clearedFlags_of_transparent (latch.trans transparent)
      rw [cleared, sau] at flags channelFenced
      rw [latch, transparent, fenced] at channelFenced
      refine ⟨flags .speedHigh (by decide), flags .speedLow (by decide), flags .repeatLong (by decide),
        flags .repeatShort (by decide), channelFenced.trans ?_⟩
      cases s.anyFenced <;> simp
    · exact cond.trans (by rw [← hu]; rfl)
    · rw [takeClearPulse, exitFences_lnb, ← lnb]
      rfl
    · rw [blocks.mkt (by decide), blocks.tgn (by decide), blocks.frt (by decide), blocks.rpu (by decide),
        blocks.egu (by decide), blocks.wpu (by decide), blocks.pfl (by decide), ← hu]
      exact ⟨rfl, rfl, rfl, rfl, rfl, rfl, rfl⟩

end Sys2Proof.Machine
end

section
/-! The statements of profile selection, the drain, store sharing, the judgement of a load (chapter 10), and of the
little-endian fields. -/

namespace Sys2Proof.Machine

/-! ## Requests -/

theorem Pfl.requests_iff {f : Pfl} (h : f.debounce = none) :
    f.requests = true ↔ f.refused ≠ some f.pselStable ∧ f.activeNumber ≠ some f.pselStable := by
  simp [Pfl.requests, h]

/-- A request that is formed, in the states that take one (R169, R170). -/
theorem testRequest_of_request {s : State} (h : s.pfl.requests = true)
    (hl : s.pfl.loader = .running ∨ s.pfl.loader = .draining ∨ s.pfl.loader = .fallback) :
    testRequest s = s.setPfl { s.pfl with
      target := some s.pfl.pselStable
      loader := if s.pfl.loader = .fallback then .awaitingStore else .draining } := by
  have other : s.pfl.activeNumber ≠ some s.pfl.pselStable := by
    simp only [Pfl.requests, Bool.and_eq_true, bne_iff_ne] at h
    exact h.2
  rcases hl with hl | hl | hl <;> simp [testRequest, hl, h, other, State.setPfl]

/-- In DRAINING the active profile's own number cancels the drain (R170). -/
theorem testRequest_of_cancel {s : State} (hl : s.pfl.loader = .draining)
    (h : s.pfl.activeNumber = some s.pfl.pselStable) :
    testRequest s = s.setPfl { s.pfl with target := none, loader := .running } := by
  simp only [testRequest, hl, h, if_true]

/-- With no request formed and no drain to cancel, nothing happens. -/
theorem testRequest_of_no_request {s : State} (h : s.pfl.requests = false)
    (hl : s.pfl.loader = .draining → s.pfl.activeNumber ≠ some s.pfl.pselStable) : testRequest s = s := by
  cases loader : s.pfl.loader with
  | draining => simp [testRequest, loader, h, hl loader]
  | _ => simp [testRequest, loader, h]

theorem testRequest_of_busy {s : State}
    (h : s.pfl.loader = .loadingInitial ∨ s.pfl.loader = .awaitingStore ∨ s.pfl.loader = .loading) :
    testRequest s = s := by
  rcases h with h | h | h <;> simp only [testRequest, h]

theorem takeDebounce_of_due {s : State} {t0 : Time} (h : s.pfl.debounce = some t0)
    (he : elapsed s.wpu.time t0 = 10000) :
    takeDebounce s = testRequest (s.setPfl { s.pfl with pselStable := s.pins.psel, debounce := none }) := by
  refine if_pos ?_
  rw [State.debounceDue, h]
  exact decide_eq_true he

/-- Settles O44: the expiry makes the line's value the stable one and tests for a request. -/
theorem profileSelection : Obligations.ProfileSelection := by
  refine fun s => ⟨fun v ready change => ?_, fun t0 released running expired => ?_⟩
  · exact congrArg Host.Outcome.next ((held_of_ready _ (observePsel v) ready).trans (if_neg change.symm))
  · intro v f
    have taken : exec .pselDebounceExpiry s = .next (testRequest (s.setPfl f)) := by
      rw [← takeDebounce_of_due running expired]
      exact congrArg Host.Outcome.next (live_of_released takeDebounce released)
    have requests := Pfl.requests_iff (f := f) rfl
    rw [taken]
    refine ⟨fun draining own => ?_, fun fresh other loader => ?_, fun idle => ?_⟩
    · rw [testRequest_of_cancel (s := s.setPfl f) draining own]
      rfl
    · rw [testRequest_of_request (s := s.setPfl f) (requests.2 ⟨fresh, other⟩) loader]
      rfl
    · have unchanged : testRequest (s.setPfl f) = s.setPfl f := by
        rcases idle with busy | ⟨settled, same⟩ | ⟨draining, other, refused⟩
        · exact testRequest_of_busy busy
        · refine testRequest_of_no_request (Bool.eq_false_iff.2 fun formed => ?_) fun draining => absurd draining settled
          obtain ⟨fresh, other⟩ := requests.1 formed
          exact same.elim fresh other
        · refine testRequest_of_no_request (Bool.eq_false_iff.2 fun formed => ?_) fun _ => other
          obtain ⟨fresh, -⟩ := requests.1 formed
          exact fresh refused
      rw [unchanged]
      rfl

/-! ## The drain and the store's owners -/

theorem Lnb.placing_iff (l : Lnb) :
    l.placing = true ↔ ∃ n serial slot row, l.ctx = some n ∧ n.disp = .placed serial slot row := by
  unfold Lnb.placing
  split
  · simp_all
  · split <;> simp_all

theorem State.drainDue_iff (s : State) :
    s.drainDue = true ↔ s.pfl.loader = .draining ∧ s.frt.entries = [] ∧ ∀ c, (s.lnb.get c).placing = false := by
  simp only [State.drainDue, Bool.and_eq_true, beq_iff_eq, List.isEmpty_iff, List.all_eq_true, Bool.not_eq_true',
    and_assoc]
  exact and_congr_right' (and_congr_right' ⟨fun h c => h c c.forall_mem_all, fun h c _ => h c⟩)

/-- Settles O45: each event's condition, and what it makes of the loader and the owner. -/
theorem drainEndAndStoreSharing : Obligations.DrainEndAndStoreSharing := by
  intro s
  refine ⟨fun released draining empty refused => ?_, fun released blocked => ?_, fun ready low free => ?_,
    fun ready low loader => ?_, fun ready high programmer => ?_, fun released free high => ?_,
    fun released free awaiting => ?_, ?_, fun loader => ⟨fun idle => ?_, fun x reading => ?_⟩⟩
  · refine congrArg Host.Outcome.next ((live_of_released takeDrainEnd released).trans (if_pos ?_))
    refine s.drainDue_iff.2 ⟨draining, empty, fun c => Bool.eq_false_iff.2 fun placing => ?_⟩
    obtain ⟨n, serial, slot, row, filling, placed⟩ := (Lnb.placing_iff _).1 placing
    obtain ⟨k, disposition⟩ := refused c n filling
    cases placed.symm.trans disposition
  · refine congrArg Host.Outcome.next ((live_of_released takeDrainEnd released).trans
      (takeDrainEnd_of_not_due (Bool.eq_false_iff.2 fun due => ?_)))
    obtain ⟨draining, empty, none_placing⟩ := s.drainDue_iff.1 due
    rcases blocked with other | live | ⟨c, n, serial, slot, row, filling, placed⟩
    · exact other draining
    · exact live empty
    · exact Bool.eq_false_iff.1 (none_placing c) ((Lnb.placing_iff _).2 ⟨n, serial, slot, row, filling, placed⟩)
  · refine congrArg Host.Outcome.next ((held_of_ready _ assertSreq ready).trans ?_)
    rw [assertSreq, if_neg (Bool.eq_false_iff.1 low)]
    exact if_pos free
  · refine congrArg Host.Outcome.next ((held_of_ready _ assertSreq ready).trans ?_)
    rw [assertSreq, if_neg (Bool.eq_false_iff.1 low)]
    refine if_neg (show s.pfl.owner ≠ .free from ?_)
    rw [loader]
    decide
  · refine congrArg Host.Outcome.next ((held_of_ready _ releaseSreq ready).trans ?_)
    rw [releaseSreq, if_pos high]
    exact if_pos programmer
  · refine congrArg Host.Outcome.next ((live_of_released takeGrant released).trans (if_pos ?_))
    rw [State.grantDue, free, high]
    rfl
  · refine congrArg Host.Outcome.next ((live_of_released takeLoadingStart released).trans ((if_pos ?_).trans ?_))
    · rw [State.loadDue, free, awaiting]
      rfl
    · rfl
  · rintro (free | programmer)
    · rw [State.portDrive, free]
    · rw [State.portDrive, programmer]
  · rw [State.portDrive, loader, idle]
  · rw [State.portDrive, loader, reading]

/-! ## The judgement -/

theorem headerAcceptable_iff (h : List Byte) :
    headerAcceptable h = true ↔ valueAt h 0 2 = 1 ∧ 1 ≤ valueAt h 2 1 ∧ valueAt h 2 1 ≤ 4 := by
  simp only [headerAcceptable, Bool.and_eq_true, beq_iff_eq, decide_eq_true_eq, and_assoc]

theorem targetCounted_iff (h : List Byte) (n : BitVec 2) :
    targetCounted h n = true ↔ n.toNat < valueAt h 2 1 := decide_eq_true_iff

theorem intact_iff (r : List Byte) :
    intact r = true ↔ ((List.range 64).map fun i => valueAt r (4 * i) 4).sum % 2 ^ 32 = 0 := by
  simp only [intact, beq_iff_eq]

theorem judge_of_bad_header {g : Staging} {n : BitVec 2} (h : ¬headerAcceptable g.header = true) :
    judge g n = some .version := if_pos (by rw [Bool.eq_false_iff.2 h]; rfl)

theorem judge_of_uncounted {g : Staging} {n : BitVec 2} (h : headerAcceptable g.header = true)
    (ht : ¬targetCounted g.header n = true) : judge g n = some .range := by
  rw [judge, h, Bool.eq_false_iff.2 ht]
  rfl

theorem judge_of_corrupt {g : Staging} {n : BitVec 2} (h : headerAcceptable g.header = true)
    (ht : targetCounted g.header n = true) (hi : ¬intact g.record = true) : judge g n = some .checksum := by
  rw [judge, h, ht, Bool.eq_false_iff.2 hi]
  rfl

/-- The read clocks 3 + 64 bytes for the header, and 3 + 256 more for a record (R180). -/
theorem loadBytesClocked_eq (h : List Byte) (n : BitVec 2) :
    loadBytesClocked h n = if headerAcceptable h = true ∧ targetCounted h n = true then 326 else 67 := by
  unfold loadBytesClocked loadTransactions
  simp only [Bool.and_eq_true]
  split <;> simp [headerRead, recordRead, portRead, Config.storeHeaderBytes, Config.profileRecordBytes]

/-- What check 4 to 13 hold of an enabled channel. -/
theorem Profile.eachEnabled_of_enabled {p : Profile} {f : ChanProfile → Bool} (h : p.eachEnabled f = true) {c : Ch}
    (hc : (p.ch.get c).enable = true) : f (p.ch.get c) = true :=
  List.all_eq_true.1 h c (List.mem_filter.2 ⟨c.forall_mem_all, hc⟩)

/-- Settles O49: the checks in their order, and the bounds read off those that passed. -/
theorem acceptedProfilesMeetTheChecks : Obligations.AcceptedProfilesMeetTheChecks := by
  intro g n
  refine ⟨fun bad => judge_of_bad_header (mt (headerAcceptable_iff _).1 bad), fun version some few =>
    ⟨fun beyond => ?_, fun counted corrupt => ?_⟩, ?_, fun accepted => ?_⟩
  · exact judge_of_uncounted ((headerAcceptable_iff _).2 ⟨version, some, few⟩)
      (mt (targetCounted_iff _ _).1 (Nat.not_lt.2 beyond))
  · exact judge_of_corrupt ((headerAcceptable_iff _).2 ⟨version, some, few⟩) ((targetCounted_iff _ _).2 counted)
      (mt (intact_iff _).1 corrupt)
  · rw [loadBytesClocked_eq]
    simp only [headerAcceptable_iff, targetCounted_iff, and_assoc]
  · obtain ⟨header, counted, whole, checked⟩ := judge_eq_none accepted
    obtain ⟨version, -, -⟩ := (headerAcceptable_iff _).1 header
    obtain ⟨range, ring, -, trim, stagger, span, -, slot, -, regions⟩ := fault_eq_none checked
    simp only [rangeOk, Profile.commonInRange, Bool.and_eq_true, decide_eq_true_eq] at range
    simp only [regionsApart, Bool.and_eq_true, decide_eq_true_eq] at regions
    obtain ⟨⟨⟨slotsEnd, ringEnd⟩, -⟩, -⟩ := regions
    obtain ⟨⟨⟨⟨-, -⟩, common⟩, -⟩, -⟩ := range
    refine ⟨version, (targetCounted_iff _ _).1 counted, (intact_iff _).1 whole, by omega, by omega, by omega, by omega,
      decide_eq_true_iff.1 slot, slotsEnd, ringEnd, fun c enabled => ?_⟩
    have rings := Profile.eachEnabled_of_enabled ring enabled
    have trims := Profile.eachEnabled_of_enabled trim enabled
    simp only [ringOk, trimOk, Bool.and_eq_true, decide_eq_true_eq] at rings trims
    exact ⟨rings.1, rings.2, trims.1, trims.2, decide_eq_true_iff.1 (Profile.eachEnabled_of_enabled span enabled),
      decide_eq_true_iff.1 (Profile.eachEnabled_of_enabled stagger enabled)⟩

/-! ## Little-endian fields -/

theorem leNat_leBytes : ∀ n v, leNat (leBytes n v) = v % 256 ^ n
  | 0, v => (Nat.mod_one v).symm
  | n + 1, v => by
    rw [leBytes, leNat, leNat_leBytes n, BitVec.toNat_ofNat, pow_succ' 256 n, Nat.mod_mul]

theorem leBytes_getElem? : ∀ (n v i : Nat) (b : Byte), (leBytes n v)[i]? = some b → b.toNat = v / 256 ^ i % 256
  | 0, _, _, _, h => by cases h
  | n + 1, v, 0, b, h => by
    cases h
    rw [pow_zero, Nat.div_one, BitVec.toNat_ofNat]
  | n + 1, v, i + 1, b, h => by
    rw [leBytes_getElem? n (v / 256) i b h, Nat.div_div_eq_div_mul, pow_succ']

/-- Settles O50: by induction on the number of bytes. -/
theorem fieldsAreLittleEndian : Obligations.FieldsAreLittleEndian := fun n v =>
  ⟨leBytes_length n v, leNat_leBytes n v, leBytes_getElem? n v⟩

end Sys2Proof.Machine
end

section
/-! The statements of chapter 6: closure and the completion rule, and the mark at the Frame Table. -/

namespace Sys2Proof.Machine

/-! ## The writer's part of the Report Unit -/

/-- The fields of the Report Unit that no report event touches. -/
structure Rpu.SameWriter (a b : Rpu) : Prop where
  writer : b.writer = a.writer
  seq : b.seq = a.seq
  statusCount : b.statusCount = a.statusCount
  statusDue : b.statusDue = a.statusDue

namespace Rpu.SameWriter

theorem refl (a : Rpu) : a.SameWriter a := ⟨rfl, rfl, rfl, rfl⟩

theorem trans {a b c : Rpu} (h : a.SameWriter b) (g : b.SameWriter c) : a.SameWriter c :=
  ⟨g.writer.trans h.writer, g.seq.trans h.seq, g.statusCount.trans h.statusCount, g.statusDue.trans h.statusDue⟩

theorem setFold (ev : ReportEvent) (s : State) : s.rpu.SameWriter (s.setFold ev).rpu := by
  cases ev <;> exact ⟨rfl, rfl, rfl, rfl⟩

theorem joinQueue (r : Report) (s : State) : s.rpu.SameWriter (joinQueue r s).1.rpu := by
  unfold Machine.joinQueue
  split
  · exact ⟨rfl, rfl, rfl, rfl⟩
  · split
    · exact .refl _
    · dsimp only
      split <;> exact ⟨rfl, rfl, rfl, rfl⟩

theorem admitReport (ev : ReportEvent) (s : State) : s.rpu.SameWriter (admitReport ev s).1.rpu := by
  unfold Machine.admitReport
  split
  · exact .refl _
  · split
    · exact .refl _
    · dsimp only
      split
      · exact (setFold ev s).trans (joinQueue ..)
      · exact setFold ev s

theorem raiseReportsDropped (s : State) : s.rpu.SameWriter (raiseReportsDropped s).rpu := by
  unfold Machine.raiseReportsDropped
  split
  · exact .refl _
  · exact admitReport _ (putFlag .reportsDropped true s)

theorem raiseReport (ev : ReportEvent) (s : State) : s.rpu.SameWriter (raiseReport ev s).rpu := by
  unfold Machine.raiseReport
  dsimp only
  split
  · exact (admitReport ev s).trans (raiseReportsDropped _)
  · exact admitReport ev s

end Rpu.SameWriter

/-! ## The closure of an entry -/

/-- The trailer item of an entry BOUNDED at `me` (R118). -/
def State.trailerItem (s : State) (p : Profile) (e : FrameEntry) (me : Pos) (kind : EndKind) : FrameItem :=
  { kind := .trailer, slot := e.slot, serial := e.serial
    writes := trailerWrites p e.slot (trailerBytes s e me kind (p.rowsInRepeat e.ms me) (s.statusOf p e kind)) }

theorem closeEntry_frt {p : Profile} {e : FrameEntry} {s : State} {me : Pos} {kind : EndKind}
    (h : e.fin = some (me, kind)) :
    (closeEntry p e s).frt = { s.frt with
      entries := s.frt.entries.filter (fun x => x != e)
      writeList := s.frt.writeList ++ [s.trailerItem p e me kind] } := by
  unfold closeEntry
  simp only [h, countClosure_frt, State.setEntries_frt, (raiseReport_within ..).frt (by decide : Block.frt ∉ reportBlocks),
    State.pushItem_frt]
  rfl

theorem trailerWrites_bytes (p : Profile) (slot : Nat) (bytes : List Byte) :
    ((trailerWrites p slot bytes).map (·.data)).flatten = bytes := by
  unfold trailerWrites
  split <;> simp

/-- One write, or two where a 4 KiB boundary lies at T + 64 (R118). -/
theorem trailerWrites_shape (p : Profile) (slot : Nat) {bytes : List Byte} (h : bytes.length = 128) :
    let at0 := p.slotBase + slot * p.slotStride + 64 + p.rows * p.rowBytes
    ((trailerWrites p slot bytes).map fun w => (w.addr, w.data.length)) =
      if (64 + p.rows * p.rowBytes) % 4096 = 4032 then [(addr64 at0, 64), (addr64 (at0 + 64), 64)]
      else [(addr64 at0, 128)] := by
  have place : p.slotStart slot + p.trailerOffset = p.slotBase + slot * p.slotStride + 64 + p.rows * p.rowBytes :=
    (Nat.add_assoc ..).symm
  simp only [trailerWrites, place]
  split
  · rw [if_pos (by assumption)]
    simp [h]
  · rw [if_neg (by assumption)]
    simp [h]

/-- The STATUS period's part of a closure (R147, log 22). -/
theorem countClosure_status (p : Profile) (s : State) :
    (countClosure p s).rpu.statusCount =
        (if p.statusPeriod = 0 ∨ p.statusPeriod ≤ s.rpu.statusCount + 1 then 0 else s.rpu.statusCount + 1) ∧
      (countClosure p s).rpu.statusDue =
        (if p.statusPeriod ≠ 0 ∧ p.statusPeriod ≤ s.rpu.statusCount + 1 then s.rpu.statusDue + 1
         else s.rpu.statusDue) := by
  unfold countClosure
  by_cases off : p.statusPeriod = 0
  · simp [off]
  · by_cases full : p.statusPeriod ≤ s.rpu.statusCount + 1 <;> simp [off, full]

theorem closeEntry_status {p : Profile} {e : FrameEntry} {s : State} (h : e.fin.isSome) :
    ∃ u : State, s.rpu.SameWriter u.rpu ∧ (closeEntry p e s).rpu = (countClosure p u).rpu := by
  obtain ⟨⟨me, kind⟩, fin⟩ := Option.isSome_iff_exists.1 h
  unfold closeEntry
  simp only [fin]
  refine ⟨_, ?_, rfl⟩
  exact Rpu.SameWriter.raiseReport _ (s.pushItem _)

/-- Settles O30: the item, the table without the entry, and the count of the STATUS period. -/
theorem closureQueuesTheTrailer : Obligations.ClosureQueuesTheTrailer := by
  intro s p e me kind fin
  have frt := closeEntry_frt (p := p) (s := s) fin
  obtain ⟨u, same, closed⟩ := closeEntry_status (p := p) (s := s) (Option.isSome_of_mem fin)
  obtain ⟨count, due⟩ := countClosure_status p u
  rw [same.statusCount, ← closed] at count
  rw [same.statusCount, same.statusDue, ← closed] at due
  refine ⟨s.trailerItem p e me kind, rfl, rfl, rfl, ?_, trailerWrites_shape p e.slot (trailerBytes_length ..),
    by rw [frt], by rw [frt], by rw [frt], by rw [frt], count, due⟩
  simp only [State.trailerItem, trailerWrites_bytes]
  exact ⟨trailerBytes_length .., trailerBytes_take .., trailerBytes_drop ..⟩

/-! ## The completion rule -/

theorem State.headClear_iff (s : State) (c : Ch) (me : Pos) :
    s.headClear c me = true ↔ ∀ r rest, (s.tgn.get c).ptq = r :: rest → 0 ≤ sdist me r.w := by
  unfold State.headClear
  cases (s.tgn.get c).ptq with
  | nil => simp
  | cons r rest =>
    refine (atOrPast_iff ..).trans ⟨fun h x _ hx => ?_, fun h => h r rest rfl⟩
    cases hx
    exact h

theorem not_before_iff (a b : Pos) : (!before a b) = true ↔ 0 ≤ sdist a b := by
  rw [Bool.not_eq_true', Bool.eq_false_iff, Ne, before_iff, Int.not_lt]

theorem State.ctxClear_iff (s : State) (c : Ch) (me : Pos) :
    s.ctxClear c me = true ↔ ∀ n serial slot row r, (s.lnb.get c).ctx = some n → n.disp = .placed serial slot row →
      n.record = some r → 0 ≤ sdist me r.w := by
  unfold State.ctxClear
  cases (s.lnb.get c).ctx with
  | none => simp
  | some n =>
    dsimp only
    split
    · rename_i placed record
      refine (not_before_iff ..).trans ⟨fun h m _ _ _ x hm _ hx => ?_, fun h => h n _ _ _ _ rfl placed record⟩
      cases hm
      cases record.symm.trans hx
      exact h
    · rename_i other
      simp only [true_iff]
      intro m serial slot row x hm hd hx
      cases hm
      exact absurd hx (other _ _ _ _ hd)

/-- The three conditions of R111, of an entry that is BOUNDED. -/
theorem State.doneFor_iff (s : State) (p : Profile) (e : FrameEntry) (c : Ch) :
    s.doneFor p e c = true ↔ ∃ me kind, e.fin = some (me, kind) ∧
      0 ≤ sdist me (s.wpu.wmax - BitVec.ofNat 40 (p.ch.get c).stagger) ∧
      (∀ r rest, (s.tgn.get c).ptq = r :: rest → 0 ≤ sdist me r.w) ∧
      ∀ n serial slot row r, (s.lnb.get c).ctx = some n → n.disp = .placed serial slot row → n.record = some r →
        0 ≤ sdist me r.w := by
  unfold State.doneFor
  cases e.fin with
  | none => simp
  | some x =>
    obtain ⟨me, kind⟩ := x
    simp only [Bool.and_eq_true, atOrPast_iff, State.headClear_iff, State.ctxClear_iff, and_assoc]
    constructor
    · exact fun h => ⟨me, kind, rfl, h⟩
    · rintro ⟨_, _, hx, h⟩
      cases hx
      exact h

/-- What an evaluation makes of an entry's done flags; nothing else of it changes (R113). -/
theorem State.markDone_spec (s : State) (p : Profile) (cs : List Ch) (e : FrameEntry) :
    s.markDone p cs e = { e with done := (s.markDone p cs e).done } ∧
      ∀ c, (s.markDone p cs e).done.get c = true ↔
        e.done.get c = true ∨ (c ∈ cs ∧ (p.ch.get c).enable = true ∧ s.doneFor p e c = true) := by
  induction cs generalizing e with
  | nil => exact ⟨rfl, fun c => by simp [State.markDone]⟩
  | cons d cs ih =>
    have one : s.markDone p (d :: cs) e = s.markDone p cs
        (if (p.ch.get d).enable && s.doneFor p e d then { e with done := e.done.set d true } else e) := rfl
    rw [one]
    split
    · rename_i marked
      rw [Bool.and_eq_true] at marked
      obtain ⟨rest, flags⟩ := ih { e with done := e.done.set d true }
      refine ⟨by rw [rest], fun c => (flags c).trans ?_⟩
      rw [Quad.get_set]
      by_cases hc : c = d
      · subst hc
        simp [marked]
      · simp only [hc, if_false, List.mem_cons, false_or]
        rfl
    · rename_i unmarked
      obtain ⟨rest, flags⟩ := ih e
      refine ⟨rest, fun c => (flags c).trans (or_congr_right ?_)⟩
      by_cases hc : c = d
      · subst hc
        simp only [Bool.and_eq_true] at unmarked
        simp [unmarked]
      · simp [hc]

/-- The closures of a list of BOUNDED entries, in their order (R114). -/
theorem closeAll_frt {p : Profile} :
    ∀ {l : List FrameEntry} (s : State), (∀ e ∈ l, e.fin.isSome) → ∃ items,
      (l.foldl (fun t e => closeEntry p e t) s).frt = { s.frt with
        entries := s.frt.entries.filter (fun x => !l.contains x), writeList := s.frt.writeList ++ items } ∧
      items.map (fun i => (i.kind, i.slot, i.serial)) = l.map fun e => (ItemKind.trailer, e.slot, e.serial)
  | [], s, _ => ⟨[], by simp, rfl⟩
  | e :: l, s, h => by
    obtain ⟨⟨me, kind⟩, fin⟩ := Option.isSome_iff_exists.1 (h e List.mem_cons_self)
    obtain ⟨items, frt, keys⟩ := closeAll_frt (p := p) (closeEntry p e s) fun x hx => h x (List.mem_cons_of_mem _ hx)
    refine ⟨s.trailerItem p e me kind :: items, ?_, ?_⟩
    · rw [List.foldl_cons, frt, closeEntry_frt fin, List.filter_filter]
      simp only [List.append_assoc, List.cons_append, List.nil_append, Frt.mk.injEq, and_self, and_true]
      refine List.filter_congr fun x _ => ?_
      simp only [List.contains_cons, Bool.not_or, bne, Bool.and_comm]
    · rw [List.map_cons, keys]
      rfl

theorem closeComplete_frt (p : Profile) (s : State) : ∃ items,
    (closeComplete p s).frt = { s.frt with
      entries := s.frt.entries.filter (fun e => !e.complete p), writeList := s.frt.writeList ++ items } ∧
    items.map (fun i => (i.kind, i.slot, i.serial)) =
      (s.frt.entries.filter (·.complete p)).map fun e => (ItemKind.trailer, e.slot, e.serial) := by
  obtain ⟨items, frt, keys⟩ := closeAll_frt (p := p) (l := s.frt.entries.filter (·.complete p)) s fun e he => by
    have complete := (List.mem_filter.1 he).2
    rw [FrameEntry.complete, Bool.and_eq_true] at complete
    exact complete.1
  refine ⟨items, frt.trans ?_, keys⟩
  have closed : s.frt.entries.filter (fun x => !(s.frt.entries.filter (·.complete p)).contains x) =
      s.frt.entries.filter (fun e => !e.complete p) := by
    refine List.filter_congr fun x hx => congrArg (!·) (Bool.eq_iff_iff.2 ?_)
    rw [List.contains_iff_mem, List.mem_filter]
    exact ⟨fun h => h.2, fun h => ⟨hx, h⟩⟩
  rw [closed]

/-- The entries that an evaluation has marked, before any closes. -/
def State.marked (s : State) (p : Profile) (cs : List Ch) (sel : FrameEntry → Bool) : List FrameEntry :=
  s.frt.entries.map fun e => if sel e then s.markDone p cs e else e

theorem evaluate_of_profile {cs : List Ch} {sel : FrameEntry → Bool} {s : State} {p : Profile}
    (h : s.profile = some p) : evaluate cs sel s = closeComplete p (s.setEntries (s.marked p cs sel)) :=
  withProfile_of_some h

/-- Settles O60: the marks entry by entry, then the closures in order. -/
theorem completionRuleClosesEntries : Obligations.CompletionRuleClosesEntries := by
  intro s p cs sel active t done complete
  obtain ⟨items, frt, keys⟩ := closeComplete_frt p (s.setEntries (s.marked p cs sel))
  rw [← evaluate_of_profile active] at frt
  have w := evaluate_within cs sel s
  refine ⟨⟨s.marked p cs sel, ?_, congrArg Frt.entries frt, items, congrArg Frt.writeList frt, keys⟩,
    (congrArg Frt.serial frt).trans rfl, (congrArg Frt.slotPtr frt).trans rfl, (congrArg Frt.held frt).trans rfl, w.wpu (by decide), w.mkt (by decide),
    w.tgn (by decide), w.lnb (by decide), w.egu (by decide), w.pfl (by decide), w.pins (by decide)⟩
  rw [State.marked, List.forall₂_map_right_iff]
  refine List.forall₂_same.2 fun e _ => ⟨fun skipped => ?_, fun taken => ?_⟩
  · rw [skipped, if_neg Bool.false_ne_true]
  · rw [taken, if_pos rfl]
    obtain ⟨rest, flags⟩ := s.markDone_spec p cs e
    refine ⟨rest, fun c => (flags c).trans ?_⟩
    rw [State.doneFor_iff]

/-! ## A mark at the newest entry -/

theorem boundAtMark_of_empty {m : Mark} {s : State} (h : s.frt.entries = []) : boundAtMark m s = (s, none) := by
  rw [boundAtMark, h]
  rfl

theorem boundAtMark_of_open {m : Mark} {s : State} {es : List FrameEntry} {e : FrameEntry}
    (h : s.frt.entries = es ++ [e]) (ho : e.fin = none) :
    boundAtMark m s =
      (s.setEntries (es ++ [{ e with fin := some (m.pos, if m.synth then .synthesized else .real) }]),
        some e.serial) := by
  simp only [boundAtMark, h, List.getLast?_concat, ho, setNewest, List.dropLast_concat]

theorem boundAtMark_of_bounded {m : Mark} {s : State} {es : List FrameEntry} {e : FrameEntry} {me : Pos}
    {kind : EndKind} (h : s.frt.entries = es ++ [e]) (hb : e.fin = some (me, kind)) :
    boundAtMark m s =
      if (kind = .lockLossWindow ∨ kind = .lockLossReversal) ∧ 1 ≤ sdist m.pos me then
        (s.setEntries (es ++ [{ e with fin := some (m.pos, kind) }]), none)
      else (s, none) := by
  simp only [boundAtMark, h, List.getLast?_concat, hb, setNewest, List.dropLast_concat, Bool.and_eq_true,
    Bool.or_eq_true, beq_iff_eq, decide_eq_true_eq]

/-- A mark bounds no entry that is not the newest and OPEN. -/
theorem boundAtMark_snd_of_bounded {m : Mark} {s : State}
    (h : ∀ es e, s.frt.entries = es ++ [e] → e.fin.isSome) : (boundAtMark m s).2 = none := by
  rcases List.eq_nil_or_concat' s.frt.entries with empty | ⟨es, e, newest⟩
  · rw [boundAtMark_of_empty empty]
  · obtain ⟨⟨me, kind⟩, fin⟩ := Option.isSome_iff_exists.1 (h es e newest)
    rw [boundAtMark_of_bounded newest fin]
    split <;> rfl

/-! ## Opening and skipping -/

/-- No entry is opened under HOLD, in a drain, or without a free slot (Table 6-4). -/
theorem openOrSkip_of_skip {p : Profile} {m : Mark} {s : State}
    (h : s.frt.held = true ∨ s.draining = true ∨ s.findSlot p = none) :
    ∃ reason, openOrSkip p m s = raiseReport (.frameSkipped s.frt.serial m.synth reason m.pos) s := by
  unfold openOrSkip
  dsimp only
  split
  · exact ⟨1, rfl⟩
  · split
    · exact ⟨2, rfl⟩
    · have none_free : s.findSlot p = none :=
        (h.resolve_left (by assumption)).resolve_left (by assumption)
      rw [none_free]
      exact ⟨3, rfl⟩

theorem openOrSkip_of_slot {p : Profile} {m : Mark} {s : State} {j : Nat} (hh : s.frt.held = false)
    (hd : s.draining = false) (hj : s.findSlot p = some j) : openOrSkip p m s = openEntry p m j s := by
  simp only [openOrSkip, hh, hd, hj, Bool.false_eq_true, if_false]

/-- The header item of an opening at mark `m` in slot `j` (R117). -/
def State.headerItem (s : State) (p : Profile) (m : Mark) (j : Nat) : FrameItem :=
  { kind := .header, slot := j, serial := s.frt.serial
    writes := [{ addr := addr64 (p.slotStart j), data := headerBytes s p s.frt.serial j m.pos m.synth }] }

/-- The table with the new entry, before the channels' exit from FENCED (R103, R104). -/
def State.opened (s : State) (p : Profile) (m : Mark) (j : Nat) : State :=
  { s with frt := { s.frt with
    entries := s.frt.entries ++
      [{ serial := s.frt.serial, slot := j, ms := m.pos, startSynth := m.synth, fin := none, linkReset := false
         done := .all false
         counts := .all { placed := 0, short := 0, overlong := 0, expired := 0, skipped := 0 }
         header := s.headerItem p m j }]
    slotPtr := (j + 1) % p.slots
    writeList := s.frt.writeList ++ [s.headerItem p m j] } }

theorem openEntry_eq (p : Profile) (m : Mark) (j : Nat) (s : State) :
    openEntry p m j s = if p.autoResync then exitFences (s.opened p m j) else s.opened p m j := rfl

theorem findSlot_slotFree {s : State} {p : Profile} {j : Nat} (h : s.findSlot p = some j) : s.slotFree j = true :=
  List.find?_some h

/-- No free slot lies before the one found (R103). -/
theorem findSlot_first {s : State} {p : Profile} {i j : Nat} (h : s.findSlot p = some j) (hi : i < p.slots)
    (hf : s.slotFree ((s.frt.slotPtr + i) % p.slots) = true) : ∃ i' ≤ i, j = (s.frt.slotPtr + i') % p.slots := by
  obtain ⟨-, before, after, split, taken⟩ := List.find?_eq_some_iff_append.1 h
  have length : p.slots = before.length + (after.length + 1) := by
    simpa using congrArg List.length split
  have place (n : Nat) (hn : n < p.slots) :
      (before ++ j :: after)[n]? = some ((s.frt.slotPtr + n) % p.slots) := by
    rw [← split]
    simp [hn]
  refine ⟨before.length, Nat.not_lt.1 fun early => ?_, ?_⟩
  · have reached := place i hi
    rw [List.getElem?_append_left early] at reached
    have busy := taken _ (List.mem_of_getElem? reached)
    rw [hf] at busy
    exact absurd busy Bool.false_ne_true
  · have reached := place before.length (by omega)
    rw [List.getElem?_append_right (Nat.le_refl _), Nat.sub_self] at reached
    exact Option.some.inj reached

/-- What a mark does under the active profile (R99). -/
theorem deliverMark_of_profile {m : Mark} {s : State} {p : Profile} (h : s.profile = some p) :
    deliverMark m s =
      let b := boundAtMark m { s with frt := { s.frt with serial := s.frt.serial + 1 } }
      match b.2 with
      | none => openOrSkip p m b.1
      | some serial => evaluate Ch.all (fun e => e.serial == serial) (openOrSkip p m b.1) := by
  unfold deliverMark
  exact (withProfile_of_some h).trans rfl

/-- Settles O29: the bound, the opening with its header and its exit from FENCED, and the delivery of both. -/
theorem markBoundsAndOpensOrSkips : Obligations.MarkBoundsAndOpensOrSkips := by
  intro s p m
  refine ⟨fun es e newest => ⟨fun opened => ?_, fun me kind fin lossy past => ?_, fun me kind fin firm => ?_⟩,
    fun j free running off slot => ?_, fun j free running on slot => ?_, fun active => ⟨fun es e newest opened => ?_,
      fun bounded => ?_⟩, fun skip => ?_, fun j slot => ⟨(findSlot_free slot).1, findSlot_slotFree slot⟩,
    fun i j slot => findSlot_first slot⟩
  · rw [boundAtMark_of_open newest opened]
    rfl
  · rw [boundAtMark_of_bounded newest fin, if_pos ⟨lossy, past⟩]
    rfl
  · rw [boundAtMark_of_bounded newest fin, if_neg]
    rintro ⟨rfl | rfl, past⟩ <;> rcases firm with firm | firm | near
    · cases firm
    · cases firm
    · omega
    · cases firm
    · cases firm
    · omega
  · refine ⟨s.headerItem p m j, rfl, rfl, rfl, ?_, ?_⟩
    · simp only [State.headerItem, List.map_cons, List.map_nil, headerBytes_length]
      rfl
    · rw [openOrSkip_of_slot free running slot, openEntry_eq, off]
      rfl
  · intro t off
    have entered : t = exitFences (s.opened p m j) := by
      simp only [t, openOrSkip_of_slot free running slot, openEntry_eq, on, if_true]
    have withheld : off = s.opened { p with autoResync := false } m j := by
      simp only [off]
      rw [openOrSkip_of_slot free running (by exact slot), openEntry_eq]
      rfl
    have w := exitFences_within (s.opened p m j)
    obtain ⟨rpu, -⟩ := exitFences_keeps (s.opened p m j)
    obtain ⟨cond, flag⟩ := exitFences_sau (s.opened p m j)
    rw [entered]
    refine ⟨by rw [exitFences_frt, withheld]; rfl, fun c => exitFences_lnb _ c, cond, flag, w.tgn (by decide), rpu,
      w.egu (by decide), w.mkt (by decide), w.wpu (by decide), w.pfl (by decide)⟩
  · rw [deliverMark_of_profile active, boundAtMark_of_open (by exact newest) opened]
    rfl
  · have none_bounded := boundAtMark_snd_of_bounded (m := m)
      (s := { s with frt := { s.frt with serial := s.frt.serial + 1 } }) bounded
    rw [deliverMark_of_profile active]
    dsimp only
    rw [none_bounded]
  · obtain ⟨reason, skipped⟩ := openOrSkip_of_skip (m := m) skip
    rw [skipped]
    exact ⟨(raiseReport_within ..).frt (by decide), (raiseReport_within ..).lnb (by decide)⟩

end Sys2Proof.Machine
end

section
/-! SUPPORT. What marks, losses of lock and evaluations leave of the SAU and of the Frame Table's serial. -/

namespace Sys2Proof.Machine

/-! ## The SAU through the Frame Table's work -/

theorem countClosure_sau (p : Profile) (s : State) : (countClosure p s).sau = s.sau := by
  unfold countClosure
  split
  · rfl
  · split <;> rfl

/-- A property of the SAU that reports and the exit from FENCED keep is kept by the Frame Table's work. -/
theorem keptByFrames_of_sau {Q : Sau → Prop} (raised : ∀ ev s, Q s.sau → Q (raiseReport ev s).sau)
    (unfenced : ∀ s, Q s.sau → Q (deliver .channelFenced false s).sau) : KeptByFrames fun s => Q s.sau where
  blind w h := by rwa [w.sau (by decide)]
  raiseReport := raised
  countClosure p s h := by rwa [countClosure_sau]
  unfence := unfenced

/-- The conditions of the SAU are `c` but for CHANNEL_FENCED. -/
def Sau.Holds (c : Conditions) (a : Sau) : Prop := ∃ v, a.cond = { c with channelFenced := v }

theorem holds_keptByFrames (c : Conditions) : KeptByFrames fun s => s.sau.Holds c := by
  refine keptByFrames_of_sau (fun ev s ⟨v, h⟩ => ?_) fun s ⟨v, h⟩ => ?_
  · obtain ⟨-, cond, -⟩ := raiseReport_flags ev s
    exact ⟨v, cond.trans h⟩
  · obtain ⟨-, cond, -⟩ := deliver_flags .channelFenced false s
    exact ⟨false, by rw [cond, h]; rfl⟩

theorem sameSpeed_keptByFrames (a : Sau) : KeptByFrames fun s => a.SameSpeed s.sau := by
  refine keptByFrames_of_sau (fun ev s h => ?_) fun s h => ?_
  · exact h.trans (raiseReport_flags ev s).1
  · exact h.trans (deliver_flags .channelFenced false s).1

theorem lockLost_keptByFrames : KeptByFrames fun s => s.sau.flags.lockLost = true := by
  refine keptByFrames_of_sau (Q := fun a => a.flags.lockLost = true) (fun ev s h => ?_) fun s h => ?_
  · obtain ⟨-, -, flags, -⟩ := raiseReport_flags ev s
    exact (flags .lockLost (by decide)).trans h
  · obtain ⟨-, flags⟩ := deliver_false .channelFenced s
    exact (flags .lockLost (by decide)).trans h

/-- A mark leaves the repeat-length conditions. -/
theorem deliverMark_repeat (m : Mark) (s : State) :
    (deliverMark m s).sau.cond.repeatLong = s.sau.cond.repeatLong ∧
      (deliverMark m s).sau.cond.repeatShort = s.sau.cond.repeatShort := by
  obtain ⟨v, h⟩ := (holds_keptByFrames s.sau.cond).deliverMark m s ⟨_, rfl⟩
  rw [h]
  exact ⟨rfl, rfl⟩

theorem raiseReport_cond (ev : ReportEvent) (s : State) : (raiseReport ev s).sau.cond = s.sau.cond :=
  (raiseReport_flags ev s).2.1

/-! ## The frame serial -/

theorem evaluate_serial (cs : List Ch) (sel : FrameEntry → Bool) (s : State) :
    (evaluate cs sel s).frt.serial = s.frt.serial := by
  refine withProfile_cases (P := fun t => t.frt.serial = s.frt.serial) rfl fun p _ => ?_
  obtain ⟨items, frt, -⟩ := closeComplete_frt p (s.setEntries (s.marked p cs sel))
  exact (congrArg Frt.serial frt).trans rfl

theorem boundAtMark_serial (m : Mark) (s : State) : (boundAtMark m s).1.frt.serial = s.frt.serial := by
  rcases List.eq_nil_or_concat' s.frt.entries with empty | ⟨es, e, newest⟩
  · rw [boundAtMark_of_empty empty]
  · cases fin : e.fin with
    | none => rw [boundAtMark_of_open newest fin]; rfl
    | some b =>
      rw [boundAtMark_of_bounded newest fin]
      split <;> rfl

theorem openOrSkip_serial (p : Profile) (m : Mark) (s : State) : (openOrSkip p m s).frt.serial = s.frt.serial := by
  unfold openOrSkip
  dsimp only
  split
  · rw [(raiseReport_within ..).frt (by decide)]
  · split
    · rw [(raiseReport_within ..).frt (by decide)]
    · split
      · rw [(raiseReport_within ..).frt (by decide)]
      · rw [openEntry_eq]
        split
        · rw [exitFences_frt]; rfl
        · rfl

theorem deliverMark_serial {m : Mark} {s : State} {p : Profile} (h : s.profile = some p) :
    (deliverMark m s).frt.serial = s.frt.serial + 1 := by
  rw [deliverMark_of_profile h]
  dsimp only
  split
  · rw [openOrSkip_serial, boundAtMark_serial]
  · rw [evaluate_serial, openOrSkip_serial, boundAtMark_serial]

/-! ## The loss of lock -/

/-- The end kind that a loss of lock gives its bound (R105). -/
def LossCause.endKind : LossCause → EndKind
  | .window => .lockLossWindow
  | .reversal => .lockLossReversal

theorem deliverLoss_of_open {b : Pos} {cause : LossCause} {s : State} {es : List FrameEntry} {e : FrameEntry}
    (h : s.frt.entries = es ++ [e]) (ho : e.fin = none) :
    deliverLoss b cause s = evaluate Ch.all (fun x => x.serial == e.serial)
      (s.setEntries (es ++ [{ e with fin := some (b, cause.endKind) }])) := by
  simp only [deliverLoss, h, List.getLast?_concat, ho, Option.isNone_none, if_true, setNewest, List.dropLast_concat]
  cases cause <;> rfl

theorem deliverLoss_of_bounded {b : Pos} {cause : LossCause} {s : State}
    (h : ∀ es e, s.frt.entries = es ++ [e] → e.fin.isSome) : deliverLoss b cause s = s := by
  rcases List.eq_nil_or_concat' s.frt.entries with empty | ⟨es, e, newest⟩
  · simp only [deliverLoss, empty, List.getLast?_nil]
  · have bounded : ¬e.fin.isNone = true := by
      rw [Option.isNone_iff_eq_none]
      exact Option.isSome_iff_ne_none.1 (h es e newest)
    simp only [deliverLoss, newest, List.getLast?_concat, bounded, Bool.false_eq_true, if_false]

theorem deliverLoss_serial (b : Pos) (cause : LossCause) (s : State) :
    (deliverLoss b cause s).frt.serial = s.frt.serial := by
  unfold deliverLoss
  split
  · rfl
  · split
    · exact evaluate_serial ..
    · rfl

/-- A loss of lock touches no channel: what it gives the Frame Table is a bound. -/
theorem loseLock_within_tables (p : Profile) (cause : LossCause) (s : State) :
    Within [.mkt, .frt, .rpu, .sau] s (loseLock p cause s) :=
  (((((deliverLoss_within ..).mono (by decide)).trans ((raiseFlag_within ..).mono (by decide))).trans
    (within_mkt (by decide) ..)).trans ((raiseReport_within ..).mono (by decide))).trans
    ((deliverRepeat_within ..).mono (by decide))

/-- Its frame table is the one of its bound (R105). -/
theorem loseLock_sameFrames (p : Profile) (cause : LossCause) (s : State) :
    SameFrames (deliverLoss s.mkt.expected cause s) (loseLock p cause s) :=
  (((SameFrames.flag .lockLost _).trans (.setMkt ..)).trans (.raise ..)).trans (.deliveries ..)

/-- LOCK_LOST is raised, and the repeat-length conditions no longer hold (R25, R29). -/
theorem loseLock_sau (p : Profile) (cause : LossCause) (s : State) :
    (loseLock p cause s).sau.flags.lockLost = true ∧ (loseLock p cause s).sau.cond.repeatLong = false ∧
      (loseLock p cause s).sau.cond.repeatShort = false := by
  unfold loseLock
  dsimp only
  generalize hu : State.setMkt _ _ = u
  have lost : u.sau.flags.get .lockLost = true := by
    rw [← hu]
    exact (raiseFlag_flags .lockLost _).2.2.1
  generalize ReportEvent.lock _ _ _ _ _ _ = ev
  obtain ⟨-, -, reported, -⟩ := raiseReport_flags ev u
  obtain ⟨-, long⟩ := deliver_false .repeatLong (raiseReport ev u)
  obtain ⟨-, short⟩ := deliver_false .repeatShort (deliver .repeatLong false (raiseReport ev u))
  obtain ⟨-, condLong, -⟩ := deliver_flags .repeatLong false (raiseReport ev u)
  obtain ⟨-, condShort, -⟩ := deliver_flags .repeatShort false (deliver .repeatLong false (raiseReport ev u))
  refine ⟨((short .lockLost (by decide)).trans ((long .lockLost (by decide)).trans (reported .lockLost (by decide)))).trans
    lost, ?_, ?_⟩
  · rw [deliverRepeat, condShort, condLong]
    rfl
  · rw [deliverRepeat, condShort]
    rfl

/-- The position at which a mark is next expected, m_n + L_avg (R24). -/
theorem Mkt.expected_of_newest {k : Mkt} {m : Mark} (h : k.newest = some m) :
    k.expected = m.pos + BitVec.ofNat 40 k.lAvg := by
  rw [Mkt.expected, Mkt.newestPos, h]
  rfl

end Sys2Proof.Machine
end

section
/-! The statements of the deep reversal, of acceptance and of the window's end (sections 1.3, 2.3 to 2.6). -/

namespace Sys2Proof.Machine

/-! ## Deep reversals -/

theorem mktDeepReversal_of_search {s : State} {p : Profile} (h : s.profile = some p) (hl : s.mkt.lock = .search) :
    mktDeepReversal s = s := (withProfile_of_some h).trans (if_pos hl)

theorem mktDeepReversal_of_locked {s : State} {p : Profile} (h : s.profile = some p) (hl : s.mkt.lock ≠ .search) :
    mktDeepReversal s = loseLock p .reversal (s.setMkt { s.mkt with cand := none }) :=
  (withProfile_of_some h).trans (if_neg hl)

/-- Settles O11: the reversal is delivered after the WPU's own part, and the loss leaves a bound. -/
theorem deepReversalLosesLock : Obligations.DeepReversalLosesLock := by
  intro s a b rdy r p ready reference reverse active below undelivered above
  have notDeepest : s.wpu.depth ≠ Config.maxDepth := Nat.ne_of_lt below
  let w : Wpu := { s.wpu with
    encRef := some (a, b), wpos := s.wpu.wpos - 1, depth := s.wpu.depth + 1, deepDelivered := true
    deepest := min 16777215 (max s.wpu.deepest (s.wpu.depth + 1)) }
  let u : State := { s with pins := { s.pins with encA := a, encB := b, rdy := rdy }, wpu := w }
  have delivered : exec (.encoderTransition a b rdy) s = .next (mktDeepReversal u) := by
    rw [exec_encoderTransition_of_ready a b rdy ready,
      observePair_of_reverse (s := s.setEncoderPins a b rdy) reference reverse, takeReverse, if_pos]
    · rw [Wpu.reverse_of_ne_maxDepth (by exact notDeepest)]
      rfl
    · exact (State.deepDue_of_profile (p := p) active).2 ⟨notDeepest, undelivered, above⟩
  refine ⟨mktDeepReversal u, delivered, ?_⟩
  by_cases search : s.mkt.lock = .search
  · rw [mktDeepReversal_of_search (s := u) active search]
    exact ⟨rfl, rfl, rfl, rfl, rfl, rfl, fun _ => ⟨rfl, rfl, rfl, rfl⟩, fun locked => absurd search locked⟩
  · rw [mktDeepReversal_of_locked (s := u) active search]
    have blocks := loseLock_within_tables p .reversal (u.setMkt { u.mkt with cand := none })
    have frames := loseLock_sameFrames p .reversal (u.setMkt { u.mkt with cand := none })
    obtain ⟨lost, long, short⟩ := loseLock_sau p .reversal (u.setMkt { u.mkt with cand := none })
    refine ⟨blocks.wpu (by decide), blocks.tgn (by decide), blocks.lnb (by decide), blocks.egu (by decide),
      blocks.pfl (by decide), (congrArg Frt.serial frames.frt).trans (deliverLoss_serial ..),
      fun h => absurd h search, fun _ => ⟨loseLock_mkt .., lost, long, short, fun es e m newest opened mark => ?_,
        fun bounded => ?_⟩⟩
    · have expected : Mkt.expected (u.setMkt { u.mkt with cand := none }).mkt = m.pos + BitVec.ofNat 40 s.mkt.lAvg :=
        Mkt.expected_of_newest (by exact mark)
      rw [frames.frt, deliverLoss_of_open (by exact newest) opened, expected]
      refine congrArg Frt.entries (SameFrames.evaluate ?_ ..).frt
      exact ⟨rfl, rfl, rfl, rfl, rfl, fun _ => rfl, fun _ => rfl, fun _ => rfl, rfl, rfl⟩
    · rw [frames.frt, deliverLoss_of_bounded (by exact bounded)]
      rfl

/-! ## The edge that waits -/

theorem startCandidate_mkt_congr {p : Profile} {s t : State} (hm : t.mkt = s.mkt) (hw : t.wpu.wmax = s.wpu.wmax) :
    (startCandidate p t).mkt = (startCandidate p s).mkt := by
  cases hc : s.mkt.cand with
  | some k =>
    rw [startCandidate_of_candidate (Option.isSome_of_mem hc),
      startCandidate_of_candidate (Option.isSome_of_mem (hm ▸ hc)), hm]
  | none =>
    by_cases hl : s.mkt.lock = .search
    · rw [startCandidate_of_search hc hl, startCandidate_of_search (hm ▸ hc) (hm ▸ hl), State.setMkt_mkt,
        State.setMkt_mkt, hm, hw]
    · rw [startCandidate_of_locked hc hl, startCandidate_of_locked (hm ▸ hc) (hm ▸ hl), hm, hw]
      split
      · rfl
      · split
        · rfl
        · exact hm

theorem qualifiesDue_of_no_candidate {s : State} (h : s.mkt.cand = none) : s.qualifiesDue = false := by
  simp only [State.qualifiesDue, h, Bool.and_false]

theorem qualifiesDue_iff {s : State} {p : Profile} {k : Candidate} (hp : s.profile = some p) (hk : s.mkt.cand = some k) :
    s.qualifiesDue = true ↔ k.markMin ≤ k.count := by
  simp only [State.qualifiesDue, hp, hk, Option.isSome_some, Bool.true_and, decide_eq_true_eq]

/-- When a window that is not deferred has run out (R23). -/
theorem windowDue_iff {s : State} {p : Profile} {m : Mark} (hp : s.profile = some p) (hm : s.mkt.newest = some m) :
    s.windowDue = true ↔ s.qualifiesDue = false ∧ s.mkt.lock ≠ .search ∧ s.mkt.deferred = false ∧
      ((p.lExp + p.lTol : Nat) : Int) + 1 ≤ sdist m.pos s.wpu.wmax := by
  simp only [State.windowDue, hp, hm, Bool.and_eq_true, Bool.not_eq_true', bne_iff_ne, Option.isSome_some,
    Mkt.fromNewest_of_newest hm, decide_eq_true_eq, and_assoc, true_and]
  rfl

theorem windowDue_of_search {s : State} (h : s.mkt.lock = .search) : s.windowDue = false := by
  unfold State.windowDue
  split
  · rfl
  · simp [h]

theorem windowDue_of_deferred {s : State} (h : s.mkt.deferred = true) : s.windowDue = false := by
  unfold State.windowDue
  split
  · rfl
  · simp [h]

theorem finishAdvance_of_no_edge {s : State} (h : s.mkt.edgePending = false) : finishAdvance s = s :=
  withProfile_cases (P := fun t => t = s) rfl fun p _ => if_neg (by simp [h])

theorem finishAdvance_of_edge {s : State} {p : Profile} (hp : s.profile = some p) (he : s.mkt.edgePending = true)
    (hq : s.qualifiesDue = false) (hw : s.windowDue = false) :
    finishAdvance s = startCandidate p (s.setMkt { s.mkt with edgePending := false }) :=
  (withProfile_of_some hp).trans (if_pos (by rw [he, hq, hw]; rfl))

theorem finishAdvance_of_due {s : State} (h : s.qualifiesDue = true ∨ s.windowDue = true) : finishAdvance s = s :=
  withProfile_cases (P := fun t => t = s) rfl fun p _ => if_neg (by rcases h with h | h <;> simp [h])

/-- Step 4 of R17 after a mark that has just become the newest: a waiting edge is judged against its window, unless
that window is past. -/
theorem finishAdvance_after_mark {u v : State} {p : Profile} {m : Mark} (hp : u.profile = some p)
    (hc : u.mkt.cand = none) (hl : u.mkt.lock ≠ .search) (hd : u.mkt.deferred = false) (hm : u.mkt.newest = some m)
    (hv : v.wpu = u.wpu) :
    (finishAdvance u).mkt =
      if u.mkt.edgePending = false ∨ ((p.lExp + p.lTol : Nat) : Int) + 1 ≤ sdist m.pos v.wpu.wmax then u.mkt
      else (startCandidate p { v with mkt := { u.mkt with edgePending := false } }).mkt := by
  have idle := qualifiesDue_of_no_candidate hc
  have window := windowDue_iff hp hm
  simp only [idle, hl, hd, ne_eq, not_false_eq_true, true_and] at window
  rw [hv]
  split
  · rename_i waits
    rcases waits with noEdge | past
    · rw [finishAdvance_of_no_edge noEdge]
    · rw [finishAdvance_of_due (.inr (window.2 past))]
  · rename_i acts
    obtain ⟨edge, inside⟩ := not_or.1 acts
    rw [finishAdvance_of_edge hp (by simpa using edge) idle (Bool.eq_false_iff.2 (mt window.1 inside))]
    exact startCandidate_mkt_congr rfl rfl

/-! ## Acceptance -/

theorem takeQualifies_of_due {s : State} {p : Profile} {k : Candidate} (hp : s.profile = some p)
    (hk : s.mkt.cand = some k) (hq : k.markMin ≤ k.count) :
    takeQualifies s = finishAdvance (if k.inWindow then acceptReal p k s else acceptInSearch k s) := by
  unfold takeQualifies
  rw [hp, hk]
  exact if_pos ((qualifiesDue_iff hp hk).2 hq)

/-- An acceptance gives the Frame Table and the channels the mark alone. -/
theorem acceptInSearch_tables (k : Candidate) (s : State) :
    (acceptInSearch k s).frt = (deliverMark ⟨k.start, false⟩ s).frt ∧
      (acceptInSearch k s).lnb = (deliverMark ⟨k.start, false⟩ s).lnb := by
  unfold acceptInSearch
  dsimp only
  generalize ({ s.mkt with newest := _, lock := _, coasting := _, deferred := _, cand := _ } : Mkt) = m
  rw [(raiseReport_within ..).frt (by decide), (raiseReport_within ..).lnb (by decide)]
  exact ⟨((SameFrames.setMkt s m).deliverMark _).frt, deliverMark_lnb (SameFrames.setMkt s m) rfl _⟩

/-- The state an acceptance in LOCKED or COASTING delivers its mark in. -/
def acceptRealReady (p : Profile) (k : Candidate) (s : State) : State :=
  let t := s.setMkt (setHistory p (addLength (s.mkt.newLength k) s.mkt.history)
    { s.mkt with newest := some ⟨k.start, false⟩, lock := .locked, coasting := 0, deferred := false, cand := none })
  let v := if p.slowRepeat then t.mkt.lAvg else s.mkt.newLength k
  deliverRepeat (decide (p.lHi < v)) (decide (v < p.lLo)) t

theorem acceptReal_eq (p : Profile) (k : Candidate) (s : State) :
    acceptReal p k s = deliverMark ⟨k.start, false⟩ (acceptRealReady p k s) ∨
      ∃ ev, acceptReal p k s = raiseReport ev (deliverMark ⟨k.start, false⟩ (acceptRealReady p k s)) := by
  unfold acceptReal
  dsimp only
  split
  · exact .inr ⟨_, rfl⟩
  · exact .inl rfl

theorem deliverRepeat_cond (long short : Bool) (s : State) :
    (deliverRepeat long short s).sau.cond = { s.sau.cond with repeatLong := long, repeatShort := short } := by
  obtain ⟨-, condLong, -⟩ := deliver_flags .repeatLong long s
  obtain ⟨-, condShort, -⟩ := deliver_flags .repeatShort short (deliver .repeatLong long s)
  rw [deliverRepeat, condShort, condLong]
  rfl

theorem acceptReal_tables (p : Profile) (k : Candidate) (s : State) :
    (acceptReal p k s).frt = (deliverMark ⟨k.start, false⟩ s).frt ∧
      (acceptReal p k s).lnb = (deliverMark ⟨k.start, false⟩ s).lnb ∧
      (acceptReal p k s).sau.cond.repeatLong = (acceptRealReady p k s).sau.cond.repeatLong ∧
      (acceptReal p k s).sau.cond.repeatShort = (acceptRealReady p k s).sau.cond.repeatShort := by
  have same : SameFrames s (acceptRealReady p k s) := (SameFrames.setMkt s _).trans (.deliveries ..)
  have channels : (acceptRealReady p k s).lnb = s.lnb := (deliverRepeat_within ..).lnb (by decide)
  have frt := (same.deliverMark ⟨k.start, false⟩).frt
  have lnb := deliverMark_lnb same channels ⟨k.start, false⟩
  obtain ⟨long, short⟩ := deliverMark_repeat ⟨k.start, false⟩ (acceptRealReady p k s)
  rcases acceptReal_eq p k s with e | ⟨ev, e⟩ <;> rw [e]
  · exact ⟨frt, lnb, long, short⟩
  · rw [(raiseReport_within ..).frt (by decide), (raiseReport_within ..).lnb (by decide), raiseReport_cond]
    exact ⟨frt, lnb, long, short⟩

/-- Settles O15: the acceptance, then step 4 for the edge that waits. -/
theorem qualifiedCandidateIsAccepted : Obligations.QualifiedCandidateIsAccepted := by
  intro s p k released active candidate qualified step4
  have taken : exec .candidateQualifies s =
      .next (finishAdvance (if k.inWindow then acceptReal p k s else acceptInSearch k s)) :=
    congrArg Host.Outcome.next ((live_of_released takeQualifies released).trans
      (takeQualifies_of_due active candidate qualified))
  generalize hu : (if k.inWindow then acceptReal p k s else acceptInSearch k s) = u at taken
  have accepted : Within markBlocks s u := by
    rw [← hu]
    exact .ite (fun _ => acceptReal_within ..) fun _ => acceptInSearch_within ..
  have tables : u.frt = (deliverMark ⟨k.start, false⟩ s).frt ∧ u.lnb = (deliverMark ⟨k.start, false⟩ s).lnb := by
    rw [← hu]
    split
    · obtain ⟨frt, lnb, -⟩ := acceptReal_tables p k s
      exact ⟨frt, lnb⟩
    · exact acceptInSearch_tables k s
  obtain ⟨frt, lnb⟩ := tables
  have last := finishAdvance_within u
  have profile : u.profile = some p := (accepted.profile (by decide)).trans active
  have edge {m : Mkt} (hm : u.mkt = m) (hc : m.cand = none) (hl : m.lock = .locked) (hd : m.deferred = false)
      (hn : m.newest = some ⟨k.start, false⟩) (he : m.edgePending = s.mkt.edgePending) :
      (finishAdvance u).mkt = step4 m := by
    subst hm
    rw [finishAdvance_after_mark (v := s) profile hc (by rw [hl]; decide) hd hn (accepted.wpu (by decide)).symm, he]
  refine ⟨_, taken, ?_, (last.frt (by decide)).trans frt, (last.lnb (by decide)).trans lnb,
    (last.wpu (by decide)).trans (accepted.wpu (by decide)), (last.tgn (by decide)).trans (accepted.tgn (by decide)),
    (last.egu (by decide)).trans (accepted.egu (by decide)), (last.pfl (by decide)).trans (accepted.pfl (by decide)),
    (last.pins (by decide)).trans (accepted.pins (by decide)), fun search => ?_, fun m inside newest => ?_⟩
  · rw [last.frt (by decide), frt, deliverMark_serial active]
  · have mkt := acceptInSearch_mkt k s
    rw [search, if_neg Bool.false_ne_true] at hu
    rw [hu] at mkt
    exact edge mkt rfl rfl rfl rfl rfl
  · rw [inside, if_pos rfl] at hu
    have mkt := acceptReal_mkt p k s
    have length : s.mkt.newLength k = (sdist m.pos k.start).toNat := by
      rw [Mkt.newLength, Mkt.fromNewest_of_newest newest]
    obtain ⟨-, -, long, short⟩ := acceptReal_tables p k s
    have cond : (acceptRealReady p k s).sau.cond = _ := deliverRepeat_cond ..
    rw [hu, cond] at long short
    rw [hu, length] at mkt
    rw [length] at long short
    refine ⟨edge mkt rfl rfl rfl rfl rfl, ?_, ?_⟩
    · rw [last.sau (by decide), long]
      rfl
    · rw [last.sau (by decide), short]
      rfl

/-! ## The window's end -/

theorem takeWindow_of_due {s : State} {p : Profile} (hp : s.profile = some p) (hw : s.windowDue = true) :
    takeWindow s = finishAdvance (match s.mkt.cand with
      | some k => if k.inWindow then s.setMkt { s.mkt with deferred := true } else expireWindow p s
      | none => expireWindow p s) := by
  rw [takeWindow, withProfile_of_some hp]
  exact if_pos hw

/-- A synthesized mark gives the Frame Table and the channels the mark alone. -/
theorem synthesize_tables (s : State) :
    SameFrames (deliverMark ⟨s.mkt.expected, true⟩ s) (synthesize s) ∧
      (synthesize s).lnb = (deliverMark ⟨s.mkt.expected, true⟩ s).lnb ∧
      (synthesize s).sau.cond.repeatLong = s.sau.cond.repeatLong ∧
      (synthesize s).sau.cond.repeatShort = s.sau.cond.repeatShort := by
  unfold synthesize
  dsimp only
  generalize hm : ({ s.mkt with newest := _, coasting := _, deferred := _, lock := _ } : Mkt) = k
  have marked := (SameFrames.setMkt s k).deliverMark ⟨s.mkt.expected, true⟩
  have channels := deliverMark_lnb (SameFrames.setMkt s k) rfl ⟨s.mkt.expected, true⟩
  obtain ⟨long, short⟩ := deliverMark_repeat ⟨s.mkt.expected, true⟩ (s.setMkt k)
  split
  · refine ⟨marked.trans (.raise ..), ?_, ?_, ?_⟩
    · exact ((raiseReport_within ..).lnb (by decide)).trans channels
    · exact (congrArg Conditions.repeatLong (raiseReport_cond ..)).trans long
    · exact (congrArg Conditions.repeatShort (raiseReport_cond ..)).trans short
  · exact ⟨marked, channels, long, short⟩

/-- Step 4 of R17 in SEARCH: a waiting edge starts a candidate at WMAX (R18). -/
theorem finishAdvance_in_search {u : State} {p : Profile} (hp : u.profile = some p) (hc : u.mkt.cand = none)
    (hl : u.mkt.lock = .search) :
    (finishAdvance u).mkt = { u.mkt with
      edgePending := false
      cand := if u.mkt.edgePending then
          some { start := u.wpu.wmax, count := 0, inWindow := false, markMin := p.markMin }
        else none } := by
  cases he : u.mkt.edgePending with
  | false =>
    rw [finishAdvance_of_no_edge he, if_neg Bool.false_ne_true, ← he, ← hc]
  | true =>
    rw [finishAdvance_of_edge hp he (qualifiesDue_of_no_candidate hc) (windowDue_of_search hl),
      startCandidate_of_search (by exact hc) (by exact hl), if_pos rfl]
    rfl

/-- Step 4 of R17 with a candidate: a waiting edge is ignored. -/
theorem finishAdvance_of_candidate {u : State} {p : Profile} {k : Candidate} (hp : u.profile = some p)
    (hk : u.mkt.cand = some k) (hq : u.qualifiesDue = false) (hw : u.windowDue = false) :
    finishAdvance u = u.setMkt { u.mkt with edgePending := false } := by
  cases he : u.mkt.edgePending with
  | false =>
    rw [finishAdvance_of_no_edge he, ← he]
    rfl
  | true =>
    rw [finishAdvance_of_edge hp he hq hw]
    exact startCandidate_of_candidate (Option.isSome_of_mem hk)

/-- Settles O16: the deferral, the synthesis and the loss, each followed by step 4 for the edge that waits. -/
theorem windowRunsOut : Obligations.WindowRunsOut := by
  intro s p m released active newest locked undeferred unqualified past
  have due := (windowDue_iff active newest).2 ⟨unqualified, locked, undeferred, past⟩
  have taken : exec .windowRunsOut s = .next (finishAdvance (match s.mkt.cand with
      | some k => if k.inWindow then s.setMkt { s.mkt with deferred := true } else expireWindow p s
      | none => expireWindow p s)) :=
    congrArg Host.Outcome.next ((live_of_released takeWindow released).trans (takeWindow_of_due active due))
  have expected := Mkt.expected_of_newest newest
  refine ⟨fun k candidate inside => ?_, fun idle below => ?_, fun idle missed => ?_⟩
  · rw [taken, candidate]
    dsimp only
    rw [if_pos inside, finishAdvance_of_candidate (u := s.setMkt { s.mkt with deferred := true }) (p := p) (k := k)
      active candidate unqualified (windowDue_of_deferred rfl)]
    rfl
  · have synthesized : expireWindow p s = synthesize s := if_pos below
    have mkt := synthesize_mkt s
    obtain ⟨frames, lnb, long, short⟩ := synthesize_tables s
    have blocks := synthesize_within s
    have last := finishAdvance_within (synthesize s)
    rw [idle] at taken
    dsimp only at taken
    rw [synthesized] at taken
    rw [expected] at mkt frames lnb
    refine ⟨_, taken, ?_, ?_, ?_, (last.lnb (by decide)).trans lnb, ?_, ?_,
      (last.wpu (by decide)).trans (blocks.wpu (by decide)), (last.tgn (by decide)).trans (blocks.tgn (by decide)),
      (last.egu (by decide)).trans (blocks.egu (by decide)), (last.pfl (by decide)).trans (blocks.pfl (by decide))⟩
    · rw [finishAdvance_after_mark (v := s) (p := p) ((blocks.profile (by decide)).trans active)
        (by rw [mkt]; exact idle) (by rw [mkt]; exact LockState.noConfusion) (by rw [mkt]) (by rw [mkt]) (blocks.wpu (by decide)).symm, mkt]
    · rw [last.frt (by decide), frames.frt, deliverMark_serial active]
    · rw [last.frt (by decide), frames.frt]
    · rw [last.sau (by decide), long]
    · rw [last.sau (by decide), short]
  · have lost : expireWindow p s = loseLock p .window s := if_neg (Nat.not_lt.2 missed)
    have mkt := loseLock_mkt p .window s
    have frames := loseLock_sameFrames p .window s
    have blocks := loseLock_within_tables p .window s
    obtain ⟨flag, long, short⟩ := loseLock_sau p .window s
    have last := finishAdvance_within (loseLock p .window s)
    rw [idle] at taken
    dsimp only at taken
    rw [lost] at taken
    rw [expected] at frames
    refine ⟨_, taken, ?_, fun es e entries opened => ?_, fun bounded => ?_, ?_, ?_, ?_, ?_,
      (last.wpu (by decide)).trans (blocks.wpu (by decide)), (last.tgn (by decide)).trans (blocks.tgn (by decide)),
      (last.lnb (by decide)).trans (blocks.lnb (by decide)), (last.egu (by decide)).trans (blocks.egu (by decide)),
      (last.pfl (by decide)).trans (blocks.pfl (by decide))⟩
    · rw [finishAdvance_in_search (p := p) ((blocks.profile (by decide)).trans active) (by rw [mkt]; exact idle)
        (by rw [mkt]; rfl), mkt, blocks.wpu (by decide)]
      rfl
    · rw [last.frt (by decide), frames.frt, deliverLoss_of_open entries opened]
      rfl
    · rw [last.frt (by decide), frames.frt, deliverLoss_of_bounded bounded]
    · rw [last.frt (by decide), frames.frt, deliverLoss_serial]
    · rw [last.sau (by decide), flag]
    · rw [last.sau (by decide), long]
    · rw [last.sau (by decide), short]

end Sys2Proof.Machine
end

section
/-! The statement of an advance (sections 1.2, 2.2 to 2.5, 3.1, 6.6 and 9.1). -/

namespace Sys2Proof.Machine

/-! ## What differs in one block alone -/

theorem Within.eq_setMkt {s t : State} (w : Within [.mkt] s t) : t = s.setMkt t.mkt := by
  cases s; cases t
  cases w.inReset (by decide); cases w.pins (by decide); cases w.wpu (by decide); cases w.tgn (by decide)
  cases w.lnb (by decide); cases w.frt (by decide); cases w.egu (by decide); cases w.rpu (by decide)
  cases w.sau (by decide); cases w.pfl (by decide); cases w.pending (by decide)
  rfl

theorem Within.eq_setTgn {s t : State} (w : Within [.tgn] s t) : t = { s with tgn := t.tgn } := by
  cases s; cases t
  cases w.inReset (by decide); cases w.pins (by decide); cases w.wpu (by decide); cases w.mkt (by decide)
  cases w.lnb (by decide); cases w.frt (by decide); cases w.egu (by decide); cases w.rpu (by decide)
  cases w.sau (by decide); cases w.pfl (by decide); cases w.pending (by decide)
  rfl

/-! ## Countdowns and the speed sample -/

theorem countDown_tgn (c : Ch) (s : State) :
    (countDown c s).tgn = s.tgn.set c (if s.enabled c then
      { s.tgn.get c with countdown := (s.tgn.get c).countdown.map (· - 1) } else s.tgn.get c) := by
  unfold countDown
  split
  · cases h : (s.tgn.get c).countdown with
    | none =>
      have same : ({ s.tgn.get c with countdown := none } : Tgn) = s.tgn.get c := by rw [← h]
      simp only [Option.map_none, same, Quad.set_get_self]
    | some n => rfl
  · exact (Quad.set_get_self ..).symm

/-- The countdown of every enabled channel decreases by one (R36). -/
theorem countDowns_tgn (s : State) (c : Ch) :
    (s.forChannels countDown).tgn.get c = if s.enabled c then
      { s.tgn.get c with countdown := (s.tgn.get c).countdown.map (· - 1) } else s.tgn.get c := by
  have enabled (c d : Ch) (t : State) : (countDown c t).enabled d = t.enabled d :=
    (countDown_within c t).enabled (by decide) d
  simp only [State.forChannels, Ch.all, List.foldl_cons, List.foldl_nil, countDown_tgn, enabled, Quad.get_set]
  cases c <;> simp

theorem countDowns_within (s : State) : Within [.tgn] s (s.forChannels countDown) :=
  forChannels_within countDown_within s

theorem countAdvance_eq (s : State) :
    countAdvance s = { s with sau := { s.sau with
      raw := if s.profile.isSome && s.sau.speedT0.isSome then min 16777215 (s.sau.raw + 1) else s.sau.raw } } := by
  unfold countAdvance
  split <;> rfl

/-- Neither reaches what the Frame Table reads. -/
theorem SameFrames.counted (s : State) : SameFrames s (countAdvance (s.forChannels countDown)) := by
  have w := countDowns_within s
  have queues (c : Ch) : ((s.forChannels countDown).tgn.get c).ptq = (s.tgn.get c).ptq := by
    rw [countDowns_tgn]
    split <;> rfl
  rw [countAdvance_eq]
  exact ⟨w.frt (by decide), by rw [w.pfl (by decide)], by rw [w.pfl (by decide)], by rw [w.wpu (by decide)],
    by rw [w.wpu (by decide)], queues, fun c => by rw [w.lnb (by decide)], fun c => by rw [w.lnb (by decide)],
    by rw [w.sau (by decide)], by rw [w.sau (by decide)]⟩

/-! ## The speed unit through the Mark Tracker's work -/

theorem synthesize_sameSpeed (s : State) : s.sau.SameSpeed (synthesize s).sau := by
  unfold synthesize
  dsimp only
  have marked (m : Mark) (k : Mkt) := (sameSpeed_keptByFrames s.sau).deliverMark m (s.setMkt k) (.refl _)
  split
  · exact (marked ..).trans (raiseReport_flags ..).1
  · exact marked ..

theorem loseLock_sameSpeed (p : Profile) (cause : LossCause) (s : State) :
    s.sau.SameSpeed (loseLock p cause s).sau := by
  unfold loseLock
  dsimp only
  have bounded := (sameSpeed_keptByFrames s.sau).deliverLoss s.mkt.expected cause s (.refl _)
  generalize hu : State.setMkt _ _ = u
  have flagged : s.sau.SameSpeed u.sau := by
    rw [← hu]
    exact bounded.trans (raiseFlag_flags ..).1
  generalize ReportEvent.lock _ _ _ _ _ _ = e
  have reported := flagged.trans (raiseReport_flags e u).1
  generalize raiseReport e u = v at reported ⊢
  unfold deliverRepeat
  exact (reported.trans (deliver_flags ..).1).trans (deliver_flags ..).1

theorem expireWindow_sameSpeed (p : Profile) (s : State) : s.sau.SameSpeed (expireWindow p s).sau := by
  unfold expireWindow
  split
  · exact synthesize_sameSpeed s
  · exact loseLock_sameSpeed ..

/-- The candidate rejected, the glitch counted (R19). -/
def State.rejected (s : State) : State :=
  s.setMkt { s.mkt with cand := none, glitch := satInc Config.sat16 s.mkt.glitch }

theorem candidateProgress_sameSpeed (p : Profile) (active : Bool) (s : State) :
    s.sau.SameSpeed (candidateProgress p active s).sau := by
  unfold candidateProgress
  split
  · exact .refl _
  · split
    · exact .refl _
    · dsimp only
      split
      · exact expireWindow_sameSpeed p s.rejected
      · exact .refl _

/-! ## The Mark Tracker at an advance -/

/-- The reference takes the sample, and the edge is noted, before step 2 of R17. -/
def State.sampled (s : State) (active : Bool) : State :=
  s.setMkt { s.mkt with markRef := active, edgePending := active && !s.mkt.markRef }

theorem mktAdvance_of_profile {s : State} {p : Profile} (h : s.profile = some p) :
    mktAdvance s = finishAdvance (candidateProgress p (s.pins.mark != p.markActiveLow)
      (s.sampled (s.pins.mark != p.markActiveLow))) := by
  have polarity : s.markActive s.pins.mark = (s.pins.mark != p.markActiveLow) := by rw [State.markActive, h]
  rw [mktAdvance, h, polarity]
  rfl

theorem mktAdvance_sameSpeed (s : State) : s.sau.SameSpeed (mktAdvance s).sau := by
  cases h : s.profile with
  | none =>
    rw [mktAdvance, h]
    exact .refl _
  | some p =>
    rw [mktAdvance_of_profile h, (finishAdvance_within _).sau (by decide)]
    exact candidateProgress_sameSpeed p _ (s.sampled _)

theorem startCandidate_markRef (p : Profile) (s : State) : (startCandidate p s).mkt.markRef = s.mkt.markRef := by
  unfold startCandidate
  dsimp only
  split
  · rfl
  · rfl
  all_goals
    split
    · rfl
    · split <;> rfl

theorem finishAdvance_markRef (s : State) : (finishAdvance s).mkt.markRef = s.mkt.markRef := by
  refine withProfile_cases (P := fun t => t.mkt.markRef = s.mkt.markRef) rfl fun p _ => ?_
  dsimp only
  split
  · exact startCandidate_markRef p (s.setMkt { s.mkt with edgePending := false })
  · rfl

theorem candidateProgress_markRef (p : Profile) (active : Bool) (s : State) :
    (candidateProgress p active s).mkt.markRef = s.mkt.markRef := by
  unfold candidateProgress
  split
  · rfl
  · split
    · rfl
    · dsimp only
      split
      · rw [expireWindow_mkt]
        split <;> rfl
      · rfl

/-- The MARK reference takes the sampled level (R16). -/
theorem mktAdvance_markRef (s : State) : (mktAdvance s).mkt.markRef = s.markActive s.pins.mark := by
  unfold mktAdvance
  dsimp only
  split
  · rfl
  · rw [finishAdvance_markRef, candidateProgress_markRef]
    rfl

/-! ## Step 2 of R17, case by case -/

theorem candidateProgress_of_none {p : Profile} {active : Bool} {s : State} (h : s.mkt.cand = none) :
    candidateProgress p active s = s := by rw [candidateProgress, h]

theorem candidateProgress_of_active {p : Profile} {s : State} {k : Candidate} (h : s.mkt.cand = some k) :
    candidateProgress p true s = s.setMkt { s.mkt with cand := some { k with count := k.count + 1 } } := by
  rw [candidateProgress, h]
  rfl

theorem candidateProgress_of_inactive {p : Profile} {s : State} (h : s.mkt.cand.isSome) :
    candidateProgress p false s = if s.mkt.deferred then expireWindow p s.rejected else s.rejected := by
  obtain ⟨k, hk⟩ := Option.isSome_iff_exists.1 h
  rw [candidateProgress, hk]
  rfl

/-- Without a deferred expiry to carry out, the advance stays in the Mark Tracker. -/
theorem mktAdvance_within_mkt {s : State} {p : Profile} (hp : s.profile = some p)
    (h : s.mkt.cand = none ∨ (s.pins.mark != p.markActiveLow) = true ∨ s.mkt.deferred = false) :
    Within [.mkt] s (mktAdvance s) := by
  rw [mktAdvance_of_profile hp]
  generalize (s.pins.mark != p.markActiveLow) = active at h ⊢
  have sampled : Within [.mkt] s (s.sampled active) := within_mkt (by decide) ..
  refine (sampled.trans ?_).trans (finishAdvance_within _)
  cases hc : s.mkt.cand with
  | none =>
    rw [candidateProgress_of_none (by exact hc)]
    exact .refl ..
  | some k =>
    cases active with
    | true =>
      rw [candidateProgress_of_active (k := k) (by exact hc)]
      exact within_mkt (by decide) ..
    | false =>
      have undeferred : s.mkt.deferred = false := by simpa [hc] using h
      rw [candidateProgress_of_inactive (Option.isSome_of_mem (by exact hc)),
        show (s.sampled false).mkt.deferred = false from undeferred, if_neg Bool.false_ne_true]
      exact within_mkt (by decide) ..

/-- Step 4 of R17 with a candidate can only take the waiting edge away. -/
theorem finishAdvance_mkt_of_candidate {s : State} (h : s.mkt.cand.isSome) :
    (finishAdvance s).mkt = { s.mkt with edgePending := (finishAdvance s).mkt.edgePending } := by
  refine withProfile_cases (P := fun t => t.mkt = { s.mkt with edgePending := t.mkt.edgePending }) rfl fun p _ => ?_
  dsimp only
  split
  · rw [startCandidate_of_candidate (by exact h)]
    rfl
  · rfl

/-- A candidate in an active MARK is counted (R19). -/
theorem mktAdvance_counts {s : State} {p : Profile} {k : Candidate} (hp : s.profile = some p)
    (hk : s.mkt.cand = some k) (ha : (s.pins.mark != p.markActiveLow) = true) :
    (mktAdvance s).mkt = { s.mkt with
      markRef := true, cand := some { k with count := k.count + 1 }
      edgePending := (mktAdvance s).mkt.edgePending } := by
  rw [mktAdvance_of_profile hp, ha, candidateProgress_of_active (k := k) (by exact hk)]
  exact finishAdvance_mkt_of_candidate rfl

/-- A candidate in an inactive MARK is rejected, and a deferred expiry carried out (R19, R23). -/
theorem mktAdvance_rejects {s : State} {p : Profile} (hp : s.profile = some p) (hk : s.mkt.cand.isSome)
    (ha : (s.pins.mark != p.markActiveLow) = false) :
    mktAdvance s = if s.mkt.deferred then expireWindow p (s.sampled false).rejected else (s.sampled false).rejected := by
  rw [mktAdvance_of_profile hp, ha, candidateProgress_of_inactive (by exact hk)]
  refine finishAdvance_of_no_edge ?_
  split
  · rw [expireWindow_mkt]
    split <;> rfl
  · rfl

/-- With no candidate and no edge, the reference alone is set. -/
theorem mktAdvance_without_edge {s : State} {p : Profile} (hp : s.profile = some p) (hk : s.mkt.cand = none)
    (he : (s.pins.mark != p.markActiveLow) = false ∨ s.mkt.markRef = true) :
    (mktAdvance s).mkt = { s.mkt with markRef := s.pins.mark != p.markActiveLow, edgePending := false } := by
  have noEdge : ((s.pins.mark != p.markActiveLow) && !s.mkt.markRef) = false := by
    rcases he with he | he
    · rw [he, Bool.false_and]
    · rw [he, Bool.not_true, Bool.and_false]
  rw [mktAdvance_of_profile hp, candidateProgress_of_none (by exact hk), finishAdvance_of_no_edge (by exact noEdge),
    State.sampled, noEdge]
  rfl

/-- An edge with no candidate in SEARCH (R18). -/
theorem mktAdvance_edge_in_search {s : State} {p : Profile} (hp : s.profile = some p) (hk : s.mkt.cand = none)
    (ha : (s.pins.mark != p.markActiveLow) = true) (hr : s.mkt.markRef = false) (hl : s.mkt.lock = .search) :
    (mktAdvance s).mkt = { s.mkt with
      markRef := true, edgePending := false
      cand := some { start := s.wpu.wmax, count := 0, inWindow := false, markMin := p.markMin } } := by
  have edge : (s.sampled true).mkt.edgePending = true := by
    rw [State.sampled, hr]
    rfl
  rw [mktAdvance_of_profile hp, ha, candidateProgress_of_none (by exact hk),
    finishAdvance_in_search (p := p) (by exact hp) (by exact hk) (by exact hl), edge, if_pos rfl]
  rfl

/-- An edge with no candidate in LOCKED or COASTING, not past W_hi (R21). -/
theorem mktAdvance_edge_in_lock {s : State} {p : Profile} {m : Mark} (hp : s.profile = some p)
    (hk : s.mkt.cand = none) (ha : (s.pins.mark != p.markActiveLow) = true) (hr : s.mkt.markRef = false)
    (hl : s.mkt.lock ≠ .search) (hm : s.mkt.newest = some m)
    (hw : sdist m.pos s.wpu.wmax ≤ (p.lExp + p.lTol : Nat)) :
    (mktAdvance s).mkt =
      if sdist m.pos s.wpu.wmax < (p.lExp - p.lTol : Nat) then
        { s.mkt with markRef := true, edgePending := false, inhibit := satInc Config.sat16 s.mkt.inhibit }
      else { s.mkt with
        markRef := true, edgePending := false
        cand := some { start := s.wpu.wmax, count := 0, inWindow := true, markMin := p.markMin } } := by
  have edge : (s.sampled true).mkt.edgePending = true := by
    rw [State.sampled, hr]
    rfl
  have inside : (s.sampled true).windowDue = false := by
    refine Bool.eq_false_iff.2 fun due => ?_
    obtain ⟨-, -, -, past⟩ := (windowDue_iff (p := p) (m := m) (by exact hp) (by exact hm)).1 due
    exact absurd (show ((p.lExp + p.lTol : Nat) : Int) + 1 ≤ sdist m.pos s.wpu.wmax from past) (by omega)
  rw [mktAdvance_of_profile hp, ha, candidateProgress_of_none (by exact hk),
    finishAdvance_of_edge (p := p) (by exact hp) edge (qualifiesDue_of_no_candidate (by exact hk)) inside,
    startCandidate_of_locked (by exact hk) (by exact hl), Mkt.fromNewest_of_newest (m := m) (by exact hm)]
  by_cases low : sdist m.pos s.wpu.wmax < (p.lExp - p.lTol : Nat)
  · rw [if_pos low, if_pos (by exact low)]
    rfl
  · rw [if_neg low, if_neg (by exact low), if_pos (by exact hw)]
    rfl

/-! ## The advance delivered -/

/-- The blocks between the Mark Tracker and the completion rule, which comes last (log 1). -/
theorem deliverAdvance_eq (s : State) :
    deliverAdvance s = evaluate Ch.all (fun _ => true) (countAdvance ((mktAdvance s).forChannels countDown)) := rfl

theorem deliverAdvance_mkt_eq (s : State) : (deliverAdvance s).mkt = (mktAdvance s).mkt := by
  rw [deliverAdvance_eq, (evaluate_within ..).mkt (by decide), (countAdvance_within _).mkt (by decide),
    (countDowns_within _).mkt (by decide)]

theorem deliverAdvance_lnb (s : State) : (deliverAdvance s).lnb = (mktAdvance s).lnb := by
  rw [deliverAdvance_eq, (evaluate_within ..).lnb (by decide), (countAdvance_within _).lnb (by decide),
    (countDowns_within _).lnb (by decide)]

theorem deliverAdvance_serial (s : State) : (deliverAdvance s).frt.serial = (mktAdvance s).frt.serial := by
  rw [deliverAdvance_eq, evaluate_serial, (SameFrames.counted _).frt]

theorem deliverAdvance_tgn (s : State) (c : Ch) :
    (deliverAdvance s).tgn.get c = if s.enabled c then
      { s.tgn.get c with countdown := (s.tgn.get c).countdown.map (· - 1) } else s.tgn.get c := by
  rw [deliverAdvance_eq, (evaluate_within ..).tgn (by decide), (countAdvance_within _).tgn (by decide), countDowns_tgn,
    (mktAdvance_within s).enabled (by decide), (mktAdvance_within s).tgn (by decide)]

/-- The raw sample after an advance (R153); the rest of the speed unit stays. -/
theorem deliverAdvance_raw (s : State) :
    (deliverAdvance s).sau.raw =
      if s.profile.isSome && s.sau.speedT0.isSome then min 16777215 (s.sau.raw + 1) else s.sau.raw := by
  have tracked := mktAdvance_sameSpeed s
  have closed := (sameSpeed_keptByFrames (countAdvance ((mktAdvance s).forChannels countDown)).sau).evaluate Ch.all
    (fun _ => true) _ (.refl _)
  rw [deliverAdvance_eq, closed.raw, countAdvance_eq]
  simp only [(countDowns_within _).sau (by decide : Block.sau ∉ [Block.tgn]),
    (countDowns_within _).profile (by decide : Block.pfl ∉ [Block.tgn]),
    (mktAdvance_within s).profile (by decide : Block.pfl ∉ markBlocks), tracked.speedT0, tracked.raw]

/-- Where the Mark Tracker keeps to itself, the advance is the completion rule on what it has set. -/
theorem deliverAdvance_of_within_mkt {s : State} (h : Within [.mkt] s (mktAdvance s)) :
    deliverAdvance s = evaluate Ch.all (fun _ => true) { s with
      mkt := (deliverAdvance s).mkt, tgn := (deliverAdvance s).tgn
      sau := { s.sau with raw := (deliverAdvance s).sau.raw } } := by
  have closed := evaluate_within Ch.all (fun _ => true) (countAdvance ((mktAdvance s).forChannels countDown))
  have speed := (sameSpeed_keptByFrames (countAdvance ((mktAdvance s).forChannels countDown)).sau).evaluate Ch.all
    (fun _ => true) _ (.refl _)
  rw [← deliverAdvance_eq] at closed speed
  refine (deliverAdvance_eq s).trans (congrArg (evaluate Ch.all fun _ => true) ?_)
  rw [closed.mkt (by decide), closed.tgn (by decide), speed.raw]
  rw [countAdvance_eq, (countDowns_within (mktAdvance s)).eq_setTgn, h.eq_setMkt]
  rfl

/-- An advance observed in a ready state. -/
theorem exec_advance {s : State} {a b : Bool} {rdy : Quad Bool} {r : Bool × Bool} (ready : s.ready = true)
    (reference : s.wpu.encRef = some r) (forward : classifyPair s.encInverted r (a, b) = .forward)
    (depth : s.wpu.depth = 0) :
    exec (.encoderTransition a b rdy) s = .next (deliverAdvance { s with
      pins := { s.pins with encA := a, encB := b, rdy := rdy }
      wpu := { s.wpu with
        encRef := some (a, b), wpos := s.wpu.wpos + 1, wmax := s.wpu.wpos + 1, deepDelivered := false } }) := by
  rw [exec_encoderTransition_of_ready a b rdy ready,
    observePair_of_forward (s := s.setEncoderPins a b rdy) reference forward, takeForward, if_pos (by exact depth)]
  rfl

/-- The rejection carried out with its expiry, at a state that differs in the pins from `s`, as the Frame Table reads
it. -/
theorem SameFrames.rejecting {s : State} {pins : Pins} {w : Wpu} :
    SameFrames { s with wpu := w } (State.rejected (State.sampled { s with pins := pins, wpu := w } false)) :=
  ⟨rfl, rfl, rfl, rfl, rfl, fun _ => rfl, fun _ => rfl, fun _ => rfl, rfl, rfl⟩

/-- Settles O8: the blocks in the order of the model, and the Mark Tracker's cases. -/
theorem advanceReachesTheBlocks : Obligations.AdvanceReachesTheBlocks := by
  intro s a b rdy r ready reference forward depth
  refine ⟨_, exec_advance ready reference forward depth, ?_⟩
  generalize hpins : ({ s.pins with encA := a, encB := b, rdy := rdy } : Pins) = pins
  generalize hw : ({ s.wpu with
    encRef := some (a, b), wpos := s.wpu.wpos + 1, wmax := s.wpu.wpos + 1, deepDelivered := false } : Wpu) = w
  have mark : pins.mark = s.pins.mark := by rw [← hpins]
  have wmax : w.wmax = s.wpu.wpos + 1 := by rw [← hw]
  let u : State := { s with pins := pins, wpu := w }
  have blocks := deliverAdvance_within u
  have wpu : (deliverAdvance u).wpu = w := blocks.wpu (by decide)
  have frames := (SameFrames.counted (mktAdvance u)).evaluate Ch.all (fun _ => true)
  refine ⟨wpu, deliverAdvance_tgn u, deliverAdvance_raw u, ?_, blocks.egu (by decide), blocks.pfl (by decide),
    blocks.pins (by decide), fun p active => ?_⟩
  · rw [deliverAdvance_mkt_eq, mktAdvance_markRef]
    exact congrArg s.markActive mark
  · intro level x fresh rejected
    have sampled : (u.pins.mark != p.markActiveLow) = level := by
      rw [show u.pins.mark = s.pins.mark from mark]
    refine ⟨fun k candidate high => ?_, fun candidate low undeferred => ?_, fun m candidate low deferred newest => ?_,
      fun alone => ?_, fun idle high reference => ⟨fun search => ?_, fun m locked newest => ?_⟩, fun idle noEdge => ?_⟩
    · have quiet := mktAdvance_within_mkt (s := u) (p := p) active (.inr (.inl (sampled.trans high)))
      refine ⟨?_, (deliverAdvance_serial u).trans (by rw [quiet.frt (by decide)])⟩
      rw [deliverAdvance_mkt_eq]
      exact mktAdvance_counts (s := u) active candidate (sampled.trans high)
    · have step2 := mktAdvance_rejects (s := u) active candidate (sampled.trans low)
      rw [show u.mkt.deferred = false from undeferred, if_neg Bool.false_ne_true] at step2
      refine ⟨?_, ?_⟩
      · rw [deliverAdvance_mkt_eq, step2]
        rfl
      · rw [deliverAdvance_serial, step2]
        rfl
    · have step2 := mktAdvance_rejects (s := u) active candidate (sampled.trans low)
      rw [show u.mkt.deferred = true from deferred, if_pos rfl] at step2
      have expected : (u.sampled false).rejected.mkt.expected = m.pos + BitVec.ofNat 40 s.mkt.lAvg :=
        Mkt.expected_of_newest (by exact newest)
      refine ⟨fun below => ?_, fun missed => ?_⟩
      · rw [expireWindow, if_pos (by exact below)] at step2
        obtain ⟨tables, lnb, -⟩ := synthesize_tables (u.sampled false).rejected
        have mkt := synthesize_mkt (u.sampled false).rejected
        have marked := SameFrames.rejecting (s := s) (pins := pins) (w := w)
        rw [expected] at tables lnb mkt
        rw [← step2] at tables lnb mkt
        refine ⟨?_, ?_, ?_, ?_⟩
        · rw [deliverAdvance_mkt_eq, mkt]
          rfl
        · rw [deliverAdvance_serial, tables.frt,
            deliverMark_serial (s := (u.sampled false).rejected) (p := p) active]
          rfl
        · rw [wpu]
          exact (((marked.deliverMark _).trans tables).evaluate _ _ |>.trans frames).frt
        · rw [wpu, deliverAdvance_lnb, lnb]
          exact deliverMark_lnb marked rfl _
      · rw [expireWindow, if_neg (by exact Nat.not_lt.2 missed)] at step2
        have tables := loseLock_sameFrames p .window (u.sampled false).rejected
        have within := loseLock_within_tables p .window (u.sampled false).rejected
        have mkt := loseLock_mkt p .window (u.sampled false).rejected
        have bounded := SameFrames.rejecting (s := s) (pins := pins) (w := w)
        obtain ⟨lost, -⟩ := loseLock_sau p .window (u.sampled false).rejected
        rw [expected] at tables
        rw [← step2] at tables within mkt lost
        refine ⟨?_, ?_, ?_, ?_, ?_⟩
        · rw [deliverAdvance_mkt_eq, mkt]
          rfl
        · rw [deliverAdvance_serial, tables.frt, deliverLoss_serial]
          rfl
        · refine lockLost_keptByFrames.evaluate Ch.all (fun _ => true) _ ?_
          rw [countAdvance_eq, (countDowns_within _).sau (by decide)]
          exact lost
        · rw [deliverAdvance_lnb, within.lnb (by decide)]
          rfl
        · rw [wpu]
          exact (((bounded.deliverLoss _ _).trans tables).evaluate _ _ |>.trans frames).frt
    · have quiet := mktAdvance_within_mkt (s := u) (p := p) active (by rw [sampled]; exact alone)
      have whole := deliverAdvance_of_within_mkt quiet
      rw [wpu, show (deliverAdvance u).pins = pins from blocks.pins (by decide)]
      exact whole
    · rw [deliverAdvance_mkt_eq, mktAdvance_edge_in_search (s := u) active idle (sampled.trans high) reference search,
        show u.wpu.wmax = s.wpu.wpos + 1 from wmax]
    · rw [deliverAdvance_mkt_eq]
      have judged := mktAdvance_edge_in_lock (s := u) active idle (sampled.trans high) reference locked newest
      rw [show u.wpu.wmax = s.wpu.wpos + 1 from wmax] at judged
      refine ⟨fun early => ?_, fun inside late => ?_⟩
      · rw [judged (by show sdist m.pos x ≤ _; omega), if_pos (by exact early)]
        rfl
      · rw [judged late, if_neg (by exact Int.not_lt.2 inside)]
    · rw [deliverAdvance_mkt_eq, mktAdvance_without_edge (s := u) active idle (by rw [sampled]; exact noEdge), sampled]

end Sys2Proof.Machine
end

section
/-! SUPPORT. The ends of lines, the bytes a line takes and the emptying of a queue (sections 3.7, 4.3 and 4.6). -/

namespace Sys2Proof.Machine

/-! ## Faults and ends -/

theorem lineFault_lnb (c : Ch) (kind : FaultKind) (i : Nat) (s : State) :
    (lineFault c kind i s).lnb =
      s.lnb.set c { s.lnb.get c with totals := (s.lnb.get c).totals.bump kind } :=
  (raiseReport_within ..).lnb (by decide)

/-- Line states that agree in state and context are the same to the Frame Table. -/
theorem SameFrames.lines {s t : State} {q : Quad Lnb} (h : SameFrames s t)
    (state : ∀ c, (q.get c).state = (t.lnb.get c).state) (ctx : ∀ c, (q.get c).ctx = (t.lnb.get c).ctx) :
    SameFrames s { t with lnb := q } :=
  { h with
    state := fun c => (state c).trans (h.state c)
    ctx := fun c => (ctx c).trans (h.ctx c) }

theorem endShort_of_empty {c : Ch} {s : State} (h : (s.lnb.get c).ctx = none) : endShort c s = s := by
  unfold endShort
  dsimp only
  rw [h]

theorem endShort_of_refused {c : Ch} {s : State} {n : Line} {kind : FaultKind} (h : (s.lnb.get c).ctx = some n)
    (hd : n.disp = .refused kind) :
    endShort c s = { s with lnb := s.lnb.set c { s.lnb.get c with ctx := none, kL := some n.k0 } } := by
  unfold endShort
  dsimp only
  rw [h]
  dsimp only
  rw [hd]
  rfl

/-- A PLACED line without a record ends SHORT with its total (R60, R62). -/
theorem endShort_of_bare {c : Ch} {s : State} {n : Line} {serial : BitVec 32} {slot row : Nat}
    (h : (s.lnb.get c).ctx = some n) (hd : n.disp = .placed serial slot row) (hr : n.record = none) :
    endShort c s = lineFault c .short n.k0 (s.setLnb c ((s.lnb.get c).endLine n)) := by
  unfold endShort
  simp only [h, hd, hr]

/-- A PLACED line with a record ends SHORT with its notice and its total (R60, R62). -/
theorem endShort_of_noticed {c : Ch} {s : State} {n : Line} {serial : BitVec 32} {slot row : Nat} {r : TrigRec}
    (h : (s.lnb.get c).ctx = some n) (hd : n.disp = .placed serial slot row) (hr : n.record = some r) :
    endShort c s = lineFault c .short n.k0
      (evaluateChannel c (countNotice .short c r.w (s.setLnb c ((s.lnb.get c).endLine n)))) := by
  unfold endShort
  simp only [h, hd, hr]

theorem endShort_lnb_of_placed {c : Ch} {s : State} {n : Line} {serial : BitVec 32} {slot row : Nat}
    (h : (s.lnb.get c).ctx = some n) (hd : n.disp = .placed serial slot row) :
    (endShort c s).lnb = s.lnb.set c { s.lnb.get c with ctx := none, kL := some n.k0, totals :=
      { (s.lnb.get c).totals with short := min 4294967295 ((s.lnb.get c).totals.short + 1) } } := by
  have ended {t : State} (ht : t.lnb = s.lnb.set c ((s.lnb.get c).endLine n)) :
      (lineFault c .short n.k0 t).lnb = s.lnb.set c { s.lnb.get c with ctx := none, kL := some n.k0, totals :=
        { (s.lnb.get c).totals with short := min 4294967295 ((s.lnb.get c).totals.short + 1) } } := by
    rw [lineFault_lnb, ht, Quad.get_set_self, Quad.set_set]
    rfl
  cases hr : n.record with
  | none =>
    rw [endShort_of_bare h hd hr]
    exact ended rfl
  | some r =>
    rw [endShort_of_noticed h hd hr]
    exact ended ((evaluateChannel_within ..).lnb (by decide))

theorem endShort_frt_of_bare {c : Ch} {s : State} {n : Line} {serial : BitVec 32} {slot row : Nat}
    (h : (s.lnb.get c).ctx = some n) (hd : n.disp = .placed serial slot row) (hr : n.record = none) :
    (endShort c s).frt = s.frt := by
  rw [endShort_of_bare h hd hr]
  exact (SameFrames.fault ..).frt

theorem endShort_frt_of_noticed {c : Ch} {s : State} {n : Line} {serial : BitVec 32} {slot row : Nat} {r : TrigRec}
    (h : (s.lnb.get c).ctx = some n) (hd : n.disp = .placed serial slot row) (hr : n.record = some r) :
    (endShort c s).frt = (evaluate [c] (fun _ => true) { s with
      lnb := (endShort c s).lnb, frt := { s.frt with entries := bumpEntry .short c r.w s.frt.entries } }).frt := by
  rw [endShort_lnb_of_placed h hd, endShort_of_noticed h hd hr, (SameFrames.fault ..).frt]
  refine (SameFrames.evaluate (SameFrames.lines (.refl _) (fun d => ?_) fun d => ?_) _ _).symm.frt
  all_goals
    simp only [State.setLnb, countNotice, State.setEntries, Quad.get_set]
    split <;> rfl

/-- The ends of lines, as `Obligations.PiecesAreRelatedAndStragglersAbsorbed` states them. -/
theorem endShort_spec (s : State) (c : Ch) :
    let l := s.lnb.get c
    (l.ctx = none → endShort c s = s) ∧
      (∀ n kind, l.ctx = some n → n.disp = .refused kind →
        endShort c s = { s with lnb := s.lnb.set c { l with ctx := none, kL := some n.k0 } }) ∧
      ∀ n serial slot row, l.ctx = some n → n.disp = .placed serial slot row →
        let t := endShort c s
        t.lnb = s.lnb.set c { l with ctx := none, kL := some n.k0, totals :=
            { l.totals with short := min 4294967295 (l.totals.short + 1) } } ∧
          (n.record = none → t.frt = s.frt) ∧
          (∀ x, n.record = some x → t.frt = (evaluate [c] (fun _ => true) { s with
            lnb := t.lnb, frt := { s.frt with entries := bumpEntry .short c x.w s.frt.entries } }).frt) ∧
          t.tgn = s.tgn ∧ t.egu = s.egu ∧ t.mkt = s.mkt ∧ t.wpu = s.wpu ∧ t.pfl = s.pfl := by
  refine ⟨endShort_of_empty, fun n kind => endShort_of_refused, fun n serial slot row filling placed => ?_⟩
  have blocks := endShort_within c s
  exact ⟨endShort_lnb_of_placed filling placed, endShort_frt_of_bare filling placed,
    fun x => endShort_frt_of_noticed filling placed, blocks.tgn (by decide), blocks.egu (by decide),
    blocks.mkt (by decide), blocks.wpu (by decide), blocks.pfl (by decide)⟩

/-! ## A queue emptied -/

theorem expireHead_tgn (c : Ch) (s : State) :
    (expireHead c s).tgn = s.tgn.set c { s.tgn.get c with ptq := (s.tgn.get c).ptq.tail } := by
  cases h : (s.tgn.get c).ptq with
  | nil =>
    rw [expireHead_of_nil h]
    have same : ({ s.tgn.get c with ptq := [] } : Tgn) = s.tgn.get c := by rw [← h]
    rw [List.tail_nil, same, Quad.set_get_self]
  | cons r rest =>
    rw [expireHead_of_cons h, (evaluate_within ..).tgn (by decide)]
    rfl

theorem emptyQueue_keeps {P : State → Prop} {c : Ch} (expired : ∀ s, P s → P (expireHead c s)) {s : State} (h : P s) :
    P (emptyQueue c s) := by
  unfold emptyQueue
  generalize (s.tgn.get c).ptq = q
  induction q generalizing s with
  | nil => exact h
  | cons r q ih => exact ih (expired s h)

theorem emptyQueue_tgn (c : Ch) (s : State) :
    (emptyQueue c s).tgn = s.tgn.set c { s.tgn.get c with ptq := [] } := by
  unfold emptyQueue
  generalize hq : (s.tgn.get c).ptq = q
  induction q generalizing s with
  | nil =>
    have same : ({ s.tgn.get c with ptq := [] } : Tgn) = s.tgn.get c := by rw [← hq]
    rw [same, Quad.set_get_self]
    rfl
  | cons r q ih =>
    rw [List.foldl_cons, ih (expireHead c s) (by rw [expireHead_tgn, Quad.get_set_self, hq, List.tail_cons]),
      expireHead_tgn]
    simp only [Quad.get_set_self, Quad.set_set]

theorem closeEntry_cond (p : Profile) (e : FrameEntry) (s : State) : (closeEntry p e s).sau.cond = s.sau.cond := by
  unfold closeEntry
  split
  · rfl
  · rw [countClosure_sau]
    exact raiseReport_cond ..

/-- The completion rule delivers no condition. -/
theorem evaluate_cond (cs : List Ch) (sel : FrameEntry → Bool) (s : State) :
    (evaluate cs sel s).sau.cond = s.sau.cond := by
  refine withProfile_cases (P := fun t => t.sau.cond = s.sau.cond) rfl fun p _ => ?_
  have closed (es : List FrameEntry) (t : State) :
      (es.foldl (fun t e => closeEntry p e t) t).sau.cond = t.sau.cond := by
    induction es generalizing t with
    | nil => rfl
    | cons e es ih => exact (ih _).trans (closeEntry_cond p e t)
  exact closed _ _

theorem expireHead_cond (c : Ch) (s : State) : (expireHead c s).sau.cond = s.sau.cond := by
  cases h : (s.tgn.get c).ptq with
  | nil => rw [expireHead_of_nil h]
  | cons r rest => rw [expireHead_of_cons h, evaluate_cond]

theorem expireHead_serial (c : Ch) (s : State) : (expireHead c s).frt.serial = s.frt.serial := by
  cases h : (s.tgn.get c).ptq with
  | nil => rw [expireHead_of_nil h]
  | cons r rest => rw [expireHead_of_cons h, evaluate_serial]

theorem emptyQueue_cond (c : Ch) (s : State) : (emptyQueue c s).sau.cond = s.sau.cond :=
  emptyQueue_keeps (P := fun t => t.sau.cond = s.sau.cond) (fun t h => (expireHead_cond c t).trans h) rfl

theorem emptyQueue_serial (c : Ch) (s : State) : (emptyQueue c s).frt.serial = s.frt.serial :=
  emptyQueue_keeps (P := fun t => t.frt.serial = s.frt.serial) (fun t h => (expireHead_serial c t).trans h) rfl

/-! ## The relation of a piece -/

/-- The ring distance from the reference is the one that leads from it to `k` (R57). -/
theorem ringRelation_eq {lines reference k d : Nat} (same : Relation) (hd : d < lines)
    (hk : (reference + d) % lines = k % lines) :
    ringRelation lines reference k same =
      if d = 0 then same else if 2 * d < lines then .newLine else .straggler := by
  have distance : ((k : Int) - reference) % lines = d := by
    have congruent : ((reference : Int) + d) ≡ k [ZMOD lines] := by exact_mod_cast congrArg Nat.cast hk
    have shifted : (k : Int) - reference ≡ d [ZMOD lines] := by
      simpa using (congruent.symm.sub_right (reference : Int))
    have reduced : (d : Int) % lines = d := Int.emod_eq_of_lt (Int.natCast_nonneg d) (by exact_mod_cast hd)
    exact Eq.trans shifted reduced
  unfold ringRelation
  simp only [distance, Int.toNat_natCast]

theorem Lnb.relation_spec (l : Lnb) (lines k : Nat) :
    (l.ctx = none → l.kL = none → l.relation lines k = .newLine) ∧
      ∀ reference d : Nat, (∀ n, l.ctx = some n → reference = n.k0) → (l.ctx = none → l.kL = some reference) →
        d < lines → (reference + d) % lines = k % lines →
        l.relation lines k =
          if d = 0 then (if l.ctx.isSome then .continuation else .straggler)
          else if 2 * d < lines then .newLine else .straggler := by
  refine ⟨fun ctx kL => by rw [Lnb.relation, ctx, kL], fun reference d filling idle near leads => ?_⟩
  cases ctx : l.ctx with
  | none =>
    rw [Lnb.relation, ctx, idle ctx, Option.isSome_none, if_neg Bool.false_ne_true]
    exact ringRelation_eq _ near leads
  | some n =>
    rw [Lnb.relation, ctx, Option.isSome_some, if_pos rfl]
    exact ringRelation_eq _ near (filling n ctx ▸ leads)

/-! ## The bytes a line takes -/

/-- The valid bytes `valid` at byte `b` of the line `n` of channel `c`, taken by the line (R56, R59, R64). -/
def takenBytes (p : Profile) (c : Ch) (b : Nat) (valid : List Byte) (u : State) (n : Line) : State × List Write :=
  let q := p.ch.get c
  let l := u.lnb.get c
  let from' := max b n.fill
  let accepted := valid.drop (from' - b)
  let count := n.count + accepted.length
  let fill := if accepted = [] then n.fill else b + valid.length
  let out := match n.disp with
    | .placed _ slot row => placeSubPiece p q slot row from' accepted
    | .refused _ => ([], 0)
  let totals := { l.totals with misaligned := min 4294967295 (l.totals.misaligned + out.2) }
  let ended := { u with lnb := u.lnb.set c { l with ctx := none, kL := some n.k0, totals := totals } }
  (if count = q.lineBytes then (if n.record.isSome then evaluate [c] (fun _ => true) ended else ended)
    else { u with lnb := u.lnb.set c { l with
      ctx := some { n with fill := fill, count := count }, totals := totals } }, out.1)

theorem Line.accept_eq (n : Line) (b : Nat) (valid : List Byte) :
    n.accept b valid =
      let accepted := valid.drop (max b n.fill - b)
      ({ n with
          fill := if accepted = [] then n.fill else b + valid.length
          count := n.count + accepted.length }, max b n.fill, accepted) := by
  unfold Line.accept
  dsimp only
  by_cases h : valid.drop (max b n.fill - b) = []
  · simp only [h, List.isEmpty_nil, if_true, List.length_nil, Nat.add_zero]
  · simp only [List.isEmpty_eq_false_iff.2 h, Bool.false_eq_true, if_false, if_neg h]

theorem completeLine_of_some {c : Ch} {s : State} {n : Line} (h : (s.lnb.get c).ctx = some n) :
    completeLine c s =
      let ended := s.setLnb c { s.lnb.get c with ctx := none, kL := some n.k0 }
      if n.record.isSome then evaluate [c] (fun _ => true) ended else ended := by
  unfold completeLine
  simp only [h]
  cases n.record <;> rfl

theorem takeBytes_of_some {p : Profile} {c : Ch} {b : Nat} {valid : List Byte} {u : State} {n : Line}
    (h : (u.lnb.get c).ctx = some n) : takeBytes p c b valid u = takenBytes p c b valid u n := by
  unfold takeBytes takenBytes
  simp only [h, Line.accept_eq]
  refine Prod.ext ?_ rfl
  dsimp only
  split
  · rw [completeLine_of_some (n := { n with
        fill := if valid.drop (max b n.fill - b) = [] then n.fill else b + valid.length
        count := n.count + (valid.drop (max b n.fill - b)).length })
      (by simp only [State.setLnb, Quad.get_set_self]; rfl)]
    simp only [State.setLnb, Quad.get_set_self, Quad.set_set]
    rfl
  · rfl

/-! ## Pieces -/

theorem handlePiece_of_padding {p : Profile} {c : Ch} {o : Nat} {d : List Byte} {s : State}
    (h : d.take ((p.ch.get c).lineBytes - o % (p.ch.get c).srcPitch) = []) : handlePiece p c o d s = (s, []) := by
  unfold handlePiece
  simp only [h, List.isEmpty_nil, if_true]

section
variable {p : Profile} {c : Ch} {o : Nat} {d : List Byte} {s : State}

theorem handlePiece_of_straggler (h : d.take ((p.ch.get c).lineBytes - o % (p.ch.get c).srcPitch) ≠ [])
    (hr : (s.lnb.get c).relation (p.ch.get c).srcLines (o / (p.ch.get c).srcPitch) = .straggler) :
    handlePiece p c o d s = (lineFault c .straggler (o / (p.ch.get c).srcPitch) s, []) := by
  unfold handlePiece
  simp only [List.isEmpty_eq_false_iff.2 h, Bool.false_eq_true, if_false, hr]

theorem handlePiece_of_continuation (h : d.take ((p.ch.get c).lineBytes - o % (p.ch.get c).srcPitch) ≠ [])
    (hr : (s.lnb.get c).relation (p.ch.get c).srcLines (o / (p.ch.get c).srcPitch) = .continuation) :
    handlePiece p c o d s = takeBytes p c (o % (p.ch.get c).srcPitch)
      (d.take ((p.ch.get c).lineBytes - o % (p.ch.get c).srcPitch)) s := by
  unfold handlePiece
  simp only [List.isEmpty_eq_false_iff.2 h, Bool.false_eq_true, if_false, hr]

theorem handlePiece_of_newLine (h : d.take ((p.ch.get c).lineBytes - o % (p.ch.get c).srcPitch) ≠ [])
    (hr : (s.lnb.get c).relation (p.ch.get c).srcLines (o / (p.ch.get c).srcPitch) = .newLine) :
    handlePiece p c o d s = takeBytes p c (o % (p.ch.get c).srcPitch)
      (d.take ((p.ch.get c).lineBytes - o % (p.ch.get c).srcPitch))
      (newLine p c (o / (p.ch.get c).srcPitch) (endShort c s)) := by
  unfold handlePiece
  simp only [List.isEmpty_eq_false_iff.2 h, Bool.false_eq_true, if_false, hr]

end

end Sys2Proof.Machine
end

section
/-! The statements of stalls, fences and pieces (sections 4.1 to 4.6). -/

namespace Sys2Proof.Machine

/-- Settles O21: a stall ends the line as a superseding line does. -/
theorem stallEndsTheContext : Obligations.StallEndsTheContext := by
  intro s p c n released active filling old
  have due : s.stallDue c = true := by
    simp only [State.stallDue, active, filling, decide_eq_true_eq]
    exact old
  have taken : exec (.stall c) s = .next (endShort c s) :=
    congrArg Host.Outcome.next ((live_of_released (takeStall c) released).trans (if_pos due))
  rw [taken]
  obtain ⟨-, refused, placed⟩ := endShort_spec s c
  refine ⟨fun kind disp => congrArg Host.Outcome.next (refused n kind filling disp), fun e j r disp => ⟨_, rfl, ?_⟩⟩
  obtain ⟨lnb, bare, noticed, tgn, egu, mkt, wpu, pfl⟩ := placed n e j r filling disp
  exact ⟨lnb, bare, noticed, tgn, mkt, wpu, egu, pfl⟩

theorem State.fenceDue_iff {s : State} {p : Profile} {c : Ch} (h : s.profile = some p) :
    s.fenceDue c = true ↔ (s.lnb.get c).state = .running ∧ p.fenceCount ≤ (s.lnb.get c).unmatched := by
  simp only [State.fenceDue, h, Bool.and_eq_true, beq_iff_eq, decide_eq_true_eq]

/-- Some other channel is FENCED (R69). -/
theorem anyOtherFenced_iff (s : State) (c : Ch) :
    (Ch.all.any fun d => d != c && (s.lnb.get d).state == .fenced) = true ↔
      ∃ d, d ≠ c ∧ (s.lnb.get d).state = .fenced := by
  have all (d : Ch) : d ∈ Ch.all := by cases d <;> decide
  simp only [List.any_eq_true, Bool.and_eq_true, bne_iff_ne, beq_iff_eq, all, true_and]

/-- Settles O22: the queue is emptied under the fence, and CHANNEL_FENCED is delivered by the first one. -/
theorem fenceClosesTheChannel : Obligations.FenceClosesTheChannel := by
  intro s p c released active running count
  have due := (State.fenceDue_iff active).2 ⟨running, count⟩
  refine ⟨_, congrArg Host.Outcome.next ((live_of_released (takeFence c) released).trans (if_pos due)), ?_⟩
  have blocks := fenceChannel_within c s
  have others := anyOtherFenced_iff s c
  unfold fenceChannel at blocks ⊢
  dsimp only at blocks ⊢
  generalize (Ch.all.any fun d => d != c && (s.lnb.get d).state == .fenced) = fenced at blocks others ⊢
  generalize hv : s.setLnb c { s.lnb.get c with state := .fenced, unmatched := 0, ctx := none, kL := none } = v
    at blocks ⊢
  generalize hu : (if fenced then emptyQueue c v else deliver .channelFenced true (emptyQueue c v)) = u at blocks ⊢
  have delivered : Within [.rpu, .sau] (emptyQueue c v) u := by
    rw [← hu]
    exact .ite (fun _ => .refl ..) fun _ => (deliver_within ..).mono (by decide)
  have reported := raiseReport_within (.channel c true (u.lnb.get c).ringOfs) u
  refine ⟨?_, ?_, fun none => ?_, fun other => ?_, blocks.mkt (by decide), blocks.wpu (by decide),
    blocks.egu (by decide), blocks.pfl (by decide), ?_⟩
  · rw [reported.lnb (by decide), delivered.lnb (by decide), (emptyQueue_within ..).lnb (by decide), ← hv]
    rfl
  · rw [reported.tgn (by decide), delivered.tgn (by decide), emptyQueue_tgn, ← hv]
    rfl
  · have unfenced : fenced = false := Bool.eq_false_iff.2 fun h => by
      obtain ⟨d, ne, hd⟩ := others.1 h
      exact none d ne hd
    rw [raiseReport_cond, ← hu, unfenced, if_neg Bool.false_ne_true]
    obtain ⟨-, cond, -⟩ := deliver_flags .channelFenced true (emptyQueue c v)
    rw [cond]
    rfl
  · rw [raiseReport_cond, ← hu, others.2 other, if_pos rfl, emptyQueue_cond, ← hv]
    rfl
  · rw [reported.frt (by decide), delivered.frt (by decide), emptyQueue_serial, ← hv]
    rfl

/-- Settles O24: Table 4-4 is a distance modulo the ring, and each relation has its own effect. -/
theorem piecesAreRelatedAndStragglersAbsorbed : Obligations.PiecesAreRelatedAndStragglersAbsorbed := by
  refine ⟨fun l lines k _ => l.relation_spec lines k, fun s p c o d => ⟨handlePiece_of_padding, fun valid late => ?_⟩,
    fun s p c o d => ?_, endShort_spec⟩
  · have blocks := lineFault_within c .straggler (o / (p.ch.get c).srcPitch) s
    refine ⟨_, handlePiece_of_straggler valid late, lineFault_lnb .., blocks.tgn (by decide),
      (SameFrames.fault ..).frt, blocks.egu (by decide), blocks.mkt (by decide), blocks.wpu (by decide),
      blocks.pfl (by decide)⟩
  · intro q b k valid takes hvalid
    have taken {u : State} {n : Line} (h : (u.lnb.get c).ctx = some n) : takes u n (takeBytes p c b valid u) := by
      rw [takeBytes_of_some h]
      exact ⟨rfl, rfl⟩
    refine ⟨fun n filling follows => ?_, fun follows => ?_⟩
    · rw [handlePiece_of_continuation hvalid follows]
      exact taken filling
    · rw [handlePiece_of_newLine hvalid follows]
      exact fun n filling => taken filling

end Sys2Proof.Machine
end

section
/-! The statement of new lines (sections 4.4 and 5.1). -/

namespace Sys2Proof.Machine

/-- What is the same to the Frame Table stays so with the same line states and the same entries. -/
theorem SameFrames.setLines {s t : State} (h : SameFrames s t) (q : Quad Lnb) (f : Frt) :
    SameFrames { s with lnb := q, frt := f } { t with lnb := q, frt := f } :=
  { h with frt := rfl, state := fun _ => rfl, ctx := fun _ => rfl }

/-! ## Refusals -/

theorem refuseLine_lnb (c : Ch) (k : Nat) (kind : FaultKind) (s : State) :
    (refuseLine c k kind s).lnb = s.lnb.set c { s.lnb.get c with
      ctx := some (s.newContext k none (.refused kind)), totals := (s.lnb.get c).totals.bump kind } := by
  rw [refuseLine, lineFault_lnb]
  simp only [State.setLnb, Quad.get_set_self, Quad.set_set]

theorem refuseLine_frt (c : Ch) (k : Nat) (kind : FaultKind) (s : State) : (refuseLine c k kind s).frt = s.frt :=
  (SameFrames.fault ..).frt

theorem refuseLine_tgn (c : Ch) (k : Nat) (kind : FaultKind) (s : State) : (refuseLine c k kind s).tgn = s.tgn :=
  (refuseLine_within ..).tgn (by decide)

/-! ## The binding of a line to its record -/

theorem State.frameRequest_cases (s : State) (p : Profile) (w : Pos) :
    s.frameRequest p w = .refused .uncaptured ∨ s.frameRequest p w = .refused .overlong ∨
      ∃ serial slot row, s.frameRequest p w = .placed serial slot row := by
  unfold State.frameRequest
  split
  · exact .inl rfl
  · dsimp only
    split
    · exact .inr (.inl rfl)
    · exact .inr (.inr ⟨_, _, _, rfl⟩)

theorem bindLine_lnb (p : Profile) (c : Ch) (k : Nat) (r : TrigRec) (s : State) :
    (bindLine p c k r s).lnb = s.lnb.set c { s.lnb.get c with
      ctx := some (s.newContext k (some r) (s.frameRequest p r.w))
      totals := if s.frameRequest p r.w = .refused .uncaptured then
          { (s.lnb.get c).totals with uncaptured := min 4294967295 ((s.lnb.get c).totals.uncaptured + 1) }
        else (s.lnb.get c).totals } := by
  unfold bindLine
  dsimp only
  rw [(evaluateChannel_within ..).lnb (by decide)]
  rcases s.frameRequest_cases p r.w with d | d | ⟨serial, slot, row, d⟩
  · simp only [d, lineFault_lnb, State.setLnb, Quad.get_set_self, Quad.set_set, if_true]
    rfl
  · simp only [d, (countNotice_within ..).lnb (by decide : Block.lnb ∉ frameBlocks), lineFault_lnb, State.setLnb,
      Quad.get_set_self, Quad.set_set, reduceCtorEq, Disposition.refused.injEq, if_false]
    rfl
  · simp only [d, reduceCtorEq, if_false]
    rfl

/-- The entries with the notice of a binding counted (R110). -/
def bindEntries (c : Ch) (w : Pos) (es : List FrameEntry) : Disposition → List FrameEntry
  | .placed _ _ _ => bumpEntry .placed c w es
  | .refused .overlong => bumpEntry .overlong c w es
  | .refused _ => es

theorem bindLine_frt (p : Profile) (c : Ch) (k : Nat) (r : TrigRec) (s : State) :
    (bindLine p c k r s).frt = (evaluate [c] (fun _ => true) { s with
      lnb := (bindLine p c k r s).lnb
      frt := { s.frt with entries := bindEntries c r.w s.frt.entries (s.frameRequest p r.w) } }).frt := by
  rw [bindLine_lnb]
  have same (n : Line) (totals : Totals) (es : List FrameEntry) :
      SameFrames ((s.setLnb c { s.lnb.get c with ctx := some n }).setEntries es) { s with
        lnb := s.lnb.set c { s.lnb.get c with ctx := some n, totals := totals }
        frt := { s.frt with entries := es } } := by
    refine SameFrames.lines (t := (s.setLnb c { s.lnb.get c with ctx := some n }).setEntries es) (.refl _)
      (fun d => ?_) fun d => ?_
    all_goals
      simp only [State.setLnb, State.setEntries, Quad.get_set]
      split <;> rfl
  have answers := s.frameRequest_cases p r.w
  unfold bindLine
  dsimp only
  generalize s.frameRequest p r.w = d at answers ⊢
  rcases answers with rfl | rfl | ⟨serial, slot, row, rfl⟩
  · exact (((SameFrames.fault c .uncaptured k _).symm.trans (same ..)).evaluate _ _).symm.frt
  · exact ((((SameFrames.fault c .overlong k _).countNotice .overlong c r.w).symm.trans (same ..)).evaluate
      _ _).symm.frt
  · exact ((same ..).evaluate _ _).symm.frt

/-! ## The search and the records bypassed -/

theorem searchRecord_of_first {lines ofs k : Nat} {r : TrigRec} {post : List TrigRec}
    (hr : expectedIndex lines ofs r = k) :
    ∀ {pre : List TrigRec}, (∀ x ∈ pre, expectedIndex lines ofs x ≠ k) →
      searchRecord lines ofs k (pre ++ r :: post) = some (pre.length, r)
  | [], _ => if_pos hr
  | x :: pre, h => by
    rw [List.cons_append, searchRecord, if_neg (h x List.mem_cons_self),
      searchRecord_of_first hr fun y hy => h y (List.mem_cons_of_mem _ hy)]
    rfl

theorem searchRecord_of_absent {lines ofs k : Nat} :
    ∀ {q : List TrigRec}, (∀ x ∈ q, expectedIndex lines ofs x ≠ k) → searchRecord lines ofs k q = none
  | [], _ => rfl
  | x :: q, h => by
    rw [searchRecord, if_neg (h x List.mem_cons_self),
      searchRecord_of_absent fun y hy => h y (List.mem_cons_of_mem _ hy)]
    rfl

/-- The record `x` leaves the queue as BYPASSED (R66, R71, R109). -/
def State.bypass (lines ofs : Nat) (c : Ch) (u : State) (x : TrigRec) : State :=
  raiseReport (.lineFault c .bypassed ((x.seq.toNat + ofs) % lines))
    (evaluate [c] (fun _ => true) { u with
      tgn := u.tgn.set c { u.tgn.get c with ptq := (u.tgn.get c).ptq.drop 1 }
      frt := { u.frt with entries := bumpEntry .expired c x.w u.frt.entries } })

/-- BYPASSED has no total (R73). -/
theorem lineFault_bypassed (c : Ch) (i : Nat) (s : State) :
    lineFault c .bypassed i s = raiseReport (.lineFault c .bypassed i) s := by
  have same : s.setLnb c { s.lnb.get c with totals := (s.lnb.get c).totals.bump .bypassed } = s := by
    unfold State.setLnb
    rw [show ({ s.lnb.get c with totals := (s.lnb.get c).totals.bump .bypassed } : Lnb) = s.lnb.get c from rfl,
      Quad.set_get_self]
  unfold lineFault
  dsimp only
  rw [same]

theorem bypassHead_of_cons {lines : Nat} {c : Ch} {u : State} {x : TrigRec} {rest : List TrigRec}
    (h : (u.tgn.get c).ptq = x :: rest) :
    bypassHead lines c u = u.bypass lines (u.lnb.get c).ringOfs c x := by
  unfold bypassHead State.bypass
  simp only [h, lineFault_bypassed, expireHead_of_cons h]
  rfl

theorem State.bypass_within (lines ofs : Nat) (c : Ch) (u : State) (x : TrigRec) :
    Within triggerBlocks u (u.bypass lines ofs c x) :=
  have taken : Within triggerBlocks u { u with
      tgn := u.tgn.set c { u.tgn.get c with ptq := (u.tgn.get c).ptq.drop 1 }
      frt := { u.frt with entries := bumpEntry .expired c x.w u.frt.entries } } :=
    (within_tgn (by decide) u _).trans (within_frt (by decide) { u with
      tgn := u.tgn.set c { u.tgn.get c with ptq := (u.tgn.get c).ptq.drop 1 } } _)
  (taken.trans ((evaluate_within ..).mono (by decide))).trans ((raiseReport_within ..).mono (by decide))

theorem State.bypass_tgn (lines ofs : Nat) (c : Ch) (u : State) (x : TrigRec) :
    (u.bypass lines ofs c x).tgn = u.tgn.set c { u.tgn.get c with ptq := (u.tgn.get c).ptq.drop 1 } :=
  ((raiseReport_within ..).tgn (by decide)).trans ((evaluate_within ..).tgn (by decide))

theorem bypassAll_within (lines ofs : Nat) (c : Ch) (pre : List TrigRec) (u : State) :
    Within triggerBlocks u (pre.foldl (State.bypass lines ofs c) u) :=
  foldl_within (fun _ _ => State.bypass_within ..) pre u

theorem bypassAll_tgn {lines ofs : Nat} {c : Ch} {rest : List TrigRec} :
    ∀ {pre : List TrigRec} {u : State}, (u.tgn.get c).ptq = pre ++ rest →
      (pre.foldl (State.bypass lines ofs c) u).tgn = u.tgn.set c { u.tgn.get c with ptq := rest }
  | [], u, h => by
    have same : ({ u.tgn.get c with ptq := rest } : Tgn) = u.tgn.get c := by
      rw [show rest = (u.tgn.get c).ptq from h.symm]
    rw [same, Quad.set_get_self]
    rfl
  | x :: pre, u, h => by
    rw [List.foldl_cons, bypassAll_tgn (rest := rest) (by rw [State.bypass_tgn, Quad.get_set_self, h]; rfl),
      State.bypass_tgn]
    simp only [Quad.get_set_self, Quad.set_set]

/-- The records ahead leave the queue one after the other (R66). -/
theorem repeat_bypassHead {lines : Nat} {c : Ch} {rest : List TrigRec} :
    ∀ {pre : List TrigRec} {u : State}, (u.tgn.get c).ptq = pre ++ rest →
      repeatTimes (bypassHead lines c) pre.length u = pre.foldl (State.bypass lines (u.lnb.get c).ringOfs c) u
  | [], _, _ => rfl
  | x :: pre, u, h => by
    rw [List.length_cons, repeatTimes, bypassHead_of_cons h,
      repeat_bypassHead (rest := rest) (by rw [State.bypass_tgn, Quad.get_set_self, h]; rfl),
      (State.bypass_within ..).lnb (by decide)]
    rfl

/-! ## A new line in RUNNING -/

theorem newLineRunning_of_absent {p : Profile} {c : Ch} {k : Nat} {s : State}
    (h : ∀ x ∈ (s.tgn.get c).ptq, expectedIndex (p.ch.get c).srcLines (s.lnb.get c).ringOfs x ≠ k) :
    newLineRunning p c k s =
      refuseLine c k .unmatched (s.setLnb c { s.lnb.get c with unmatched := (s.lnb.get c).unmatched + 1 }) := by
  unfold newLineRunning
  simp only [searchRecord_of_absent h]

theorem newLineRunning_of_first {p : Profile} {c : Ch} {k : Nat} {s : State} {pre post : List TrigRec} {r : TrigRec}
    (hq : (s.tgn.get c).ptq = pre ++ r :: post)
    (hpre : ∀ x ∈ pre, expectedIndex (p.ch.get c).srcLines (s.lnb.get c).ringOfs x ≠ k)
    (hr : expectedIndex (p.ch.get c).srcLines (s.lnb.get c).ringOfs r = k) :
    newLineRunning p c k s = bindLine p c k r
      { pre.foldl (State.bypass (p.ch.get c).srcLines (s.lnb.get c).ringOfs c) s with
        tgn := s.tgn.set c { s.tgn.get c with ptq := post }
        lnb := s.lnb.set c { s.lnb.get c with unmatched := 0 } } := by
  unfold newLineRunning
  simp only [hq, searchRecord_of_first hr hpre, repeat_bypassHead hq]
  have lnb := (bypassAll_within (p.ch.get c).srcLines (s.lnb.get c).ringOfs c pre s).lnb (by decide)
  simp only [State.setTgn, State.setLnb, bypassAll_tgn hq, lnb, Quad.get_set_self, Quad.set_set, List.drop_one,
    List.tail_cons]

/-! ## A new line in RESYNC -/

theorem newLineResync_of_empty {p : Profile} {c : Ch} {k : Nat} {s : State} (h : (s.tgn.get c).ptq = []) :
    newLineResync p c k s = refuseLine c k .unmatched s := by
  unfold newLineResync
  simp only [h]

theorem newLineResync_of_cons {p : Profile} {c : Ch} {k : Nat} {s : State} {r : TrigRec} {rest : List TrigRec}
    (h : (s.tgn.get c).ptq = r :: rest) :
    newLineResync p c k s =
      bindLine p c k r (raiseReport (.channel c false (learnedOffset (p.ch.get c).srcLines k r.seq)) { s with
        tgn := s.tgn.set c { s.tgn.get c with ptq := rest }
        lnb := s.lnb.set c { s.lnb.get c with
          state := .running, ringOfs := learnedOffset (p.ch.get c).srcLines k r.seq, unmatched := 0 } }) := by
  unfold newLineResync
  simp only [h]
  rfl

/-- The offset learned makes the record's expected index that of the line (R65). -/
theorem learnedOffset_spec {lines : Nat} (k : Nat) (seq : BitVec 32) (h : 0 < lines) :
    learnedOffset lines k seq < lines ∧ (learnedOffset lines k seq + seq.toNat) % lines = k % lines := by
  have nonneg := Int.emod_nonneg ((k : Int) - seq.toNat) (show (lines : Int) ≠ 0 by omega)
  have less := Int.emod_lt_of_pos ((k : Int) - seq.toNat) (show (0 : Int) < lines by omega)
  have value : (learnedOffset lines k seq : Int) = ((k : Int) - seq.toNat) % lines := Int.toNat_of_nonneg nonneg
  refine ⟨by omega, ?_⟩
  have index : ((learnedOffset lines k seq + seq.toNat : Nat) : Int) % lines = (k : Int) % lines := by
    rw [Nat.cast_add, value, Int.emod_add_emod, Int.sub_add_cancel]
  exact_mod_cast index

/-! ## The cases of R63 -/

theorem newLine_of_loading {p : Profile} {c : Ch} {k : Nat} {s : State} (h : s.pfl.loader = .loading) :
    newLine p c k s = refuseLine c k .loading s := if_pos h

theorem newLine_of_fenced {p : Profile} {c : Ch} {k : Nat} {s : State} (h : s.pfl.loader ≠ .loading)
    (hc : (s.lnb.get c).state = .fenced) : newLine p c k s = refuseLine c k .fenced s := by
  unfold newLine
  simp only [if_neg h, hc]

theorem newLine_of_resync {p : Profile} {c : Ch} {k : Nat} {s : State} (h : s.pfl.loader ≠ .loading)
    (hc : (s.lnb.get c).state = .resync) : newLine p c k s = newLineResync p c k s := by
  unfold newLine
  simp only [if_neg h, hc]

theorem newLine_of_running {p : Profile} {c : Ch} {k : Nat} {s : State} (h : s.pfl.loader ≠ .loading)
    (hc : (s.lnb.get c).state = .running) : newLine p c k s = newLineRunning p c k s := by
  unfold newLine
  simp only [if_neg h, hc]

/-- Settles O25: each case of R63 refuses the line, or binds it to a record that has left the queue. -/
theorem newLineInRunningBindsItsRecord : Obligations.NewLineInRunningBindsItsRecord := by
  intro s p c k l lines bound
  refine ⟨fun pre r post queue ahead index => ?_, fun absent => ?_, fun loading => ?_, fun loader fenced => ?_,
    fun loader resync empty => ?_, fun r rest loader resync queue positive => ?_, newLine_of_running⟩
  · have blocks := bypassAll_within lines l.ringOfs c pre s
    intro bypass t
    have found : t = bindLine p c k r { pre.foldl bypass s with
        tgn := s.tgn.set c { s.tgn.get c with ptq := post }, lnb := s.lnb.set c { l with unmatched := 0 } } :=
      newLineRunning_of_first queue ahead index
    have tgn : t.tgn = s.tgn.set c { s.tgn.get c with ptq := post } := by
      rw [found, (bindLine_within ..).tgn (by decide)]
    refine ⟨tgn, ?_, ?_⟩
    · rw [found, bindLine_lnb]
      simp only [Quad.get_set_self, Quad.set_set, State.newContext]
      rw [show (pre.foldl bypass s).wpu = s.wpu from blocks.wpu (by decide)]
      rfl
    · rw [tgn, found]
      exact bindLine_frt ..
  · intro t
    have refused : t = refuseLine c k .unmatched (s.setLnb c { l with unmatched := l.unmatched + 1 }) :=
      newLineRunning_of_absent absent
    rw [refused]
    refine ⟨refuseLine_tgn .., refuseLine_frt .., ?_⟩
    rw [refuseLine_lnb]
    simp only [State.setLnb, Quad.get_set_self, Quad.set_set]
    rfl
  · rw [newLine_of_loading loading]
    exact ⟨refuseLine_tgn .., refuseLine_frt .., refuseLine_lnb ..⟩
  · rw [newLine_of_fenced loader fenced]
    exact ⟨refuseLine_tgn .., refuseLine_frt .., refuseLine_lnb ..⟩
  · rw [newLine_of_resync loader resync, newLineResync_of_empty empty]
    exact ⟨refuseLine_tgn .., refuseLine_frt .., refuseLine_lnb ..⟩
  · rw [newLine_of_resync loader resync, newLineResync_of_cons queue]
    obtain ⟨less, index⟩ := learnedOffset_spec k r.seq positive
    generalize learnedOffset (p.ch.get c).srcLines k r.seq = ofs at less index ⊢
    generalize hv : ({ s with
      tgn := s.tgn.set c { s.tgn.get c with ptq := rest }
      lnb := s.lnb.set c { s.lnb.get c with state := .running, ringOfs := ofs, unmatched := 0 } } : State) = v
    have raised := SameFrames.raise (.channel c false ofs) v
    have blocks := raiseReport_within (.channel c false ofs) v
    have tgn : (bindLine p c k r (raiseReport (.channel c false ofs) v)).tgn =
        s.tgn.set c { s.tgn.get c with ptq := rest } := by
      rw [(bindLine_within ..).tgn (by decide), blocks.tgn (by decide), ← hv]
    have request : (raiseReport (.channel c false ofs) v).frameRequest p r.w = s.frameRequest p r.w := by
      rw [State.frameRequest, blocks.frt (by decide), ← hv]
      rfl
    refine ⟨tgn, ofs, less, index, ?_, ?_⟩
    · rw [bindLine_lnb, request, blocks.lnb (by decide), State.newContext, blocks.wpu (by decide), ← hv]
      simp only [Quad.get_set_self, Quad.set_set]
      rfl
    · rw [bindLine_frt, request, tgn, blocks.frt (by decide), ← hv]
      generalize (bindLine p c k r _).lnb = q
      exact ((hv ▸ raised).setLines q _).evaluate _ _ |>.frt

end Sys2Proof.Machine
end

section
/-! The statement of a piece's admission (sections 5.6 and 7.2). -/

namespace Sys2Proof.Machine

/-! ## The bytes-out counts, which the binder leaves -/

/-- The bytes-out counts of the channels are those of `s` (R91). -/
structure SameBytesOut (s t : State) : Prop where
  bytes : ∀ d, (t.lnb.get d).bytesOut = (s.lnb.get d).bytesOut
  wrapped : ∀ d, (t.lnb.get d).wrapped = (s.lnb.get d).wrapped

namespace SameBytesOut

theorem refl (s : State) : SameBytesOut s s := ⟨fun _ => rfl, fun _ => rfl⟩

theorem trans {s t u : State} (h : SameBytesOut s t) (g : SameBytesOut t u) : SameBytesOut s u :=
  ⟨fun d => (g.bytes d).trans (h.bytes d), fun d => (g.wrapped d).trans (h.wrapped d)⟩

theorem of_within {bs : List Block} {s t : State} (w : Within bs s t) (h : Block.lnb ∉ bs) : SameBytesOut s t :=
  ⟨fun d => by rw [w.lnb h], fun d => by rw [w.lnb h]⟩

theorem of_lnb {s t : State} {c : Ch} {l : Lnb} (h : t.lnb = s.lnb.set c l)
    (bytes : l.bytesOut = (s.lnb.get c).bytesOut) (wrapped : l.wrapped = (s.lnb.get c).wrapped) :
    SameBytesOut s t := by
  constructor <;> intro d <;> rw [h, Quad.get_set]
  all_goals
    split
    · subst d
      assumption
    · rfl

theorem setLnb {s : State} {c : Ch} {l : Lnb} (bytes : l.bytesOut = (s.lnb.get c).bytesOut)
    (wrapped : l.wrapped = (s.lnb.get c).wrapped) : SameBytesOut s (s.setLnb c l) := of_lnb rfl bytes wrapped

theorem evaluateChannel (c : Ch) (s : State) : SameBytesOut s (evaluateChannel c s) :=
  of_within (evaluateChannel_within ..) (by decide)

theorem endShort (c : Ch) (s : State) : SameBytesOut s (endShort c s) := by
  cases filling : (s.lnb.get c).ctx with
  | none =>
    rw [endShort_of_empty filling]
    exact .refl s
  | some n =>
    cases disp : n.disp with
    | placed serial slot row => exact of_lnb (endShort_lnb_of_placed filling disp) rfl rfl
    | refused kind =>
      rw [endShort_of_refused filling disp]
      exact of_lnb rfl rfl rfl

theorem refuseLine (c : Ch) (k : Nat) (kind : FaultKind) (s : State) : SameBytesOut s (refuseLine c k kind s) :=
  of_lnb (refuseLine_lnb ..) rfl rfl

theorem bindLine (p : Profile) (c : Ch) (k : Nat) (r : TrigRec) (s : State) :
    SameBytesOut s (bindLine p c k r s) := of_lnb (bindLine_lnb ..) rfl rfl

theorem bypassHead (lines : Nat) (c : Ch) (s : State) : SameBytesOut s (bypassHead lines c s) := by
  cases queue : (s.tgn.get c).ptq with
  | nil =>
    unfold Machine.bypassHead
    simp only [queue]
    exact .refl s
  | cons x rest =>
    rw [bypassHead_of_cons queue]
    exact of_within (State.bypass_within ..) (by decide)

theorem newLineRunning (p : Profile) (c : Ch) (k : Nat) (s : State) : SameBytesOut s (newLineRunning p c k s) := by
  unfold Machine.newLineRunning
  dsimp only
  split
  · generalize hu : s.setLnb c { s.lnb.get c with unmatched := (s.lnb.get c).unmatched + 1 } = u
    have counted : SameBytesOut s u := by
      rw [← hu]
      exact setLnb rfl rfl
    exact counted.trans (refuseLine ..)
  · rename_i n r _
    generalize hu : repeatTimes (Machine.bypassHead (p.ch.get c).srcLines c) n s = u
    have bypassed : SameBytesOut s u := by
      rw [← hu]
      exact repeatTimes_keeps (P := SameBytesOut s) (fun t h => h.trans (bypassHead _ c t)) n s (.refl s)
    have taken : SameBytesOut u (u.setTgn c { u.tgn.get c with ptq := (u.tgn.get c).ptq.drop 1 }) :=
      of_within (within_tgn (by decide) ..) (bs := [.tgn]) (by decide)
    generalize u.setTgn c { u.tgn.get c with ptq := (u.tgn.get c).ptq.drop 1 } = v at taken ⊢
    have cleared : SameBytesOut v (v.setLnb c { v.lnb.get c with unmatched := 0 }) := setLnb rfl rfl
    exact ((bypassed.trans taken).trans cleared).trans (bindLine ..)

theorem newLineResync (p : Profile) (c : Ch) (k : Nat) (s : State) : SameBytesOut s (newLineResync p c k s) := by
  cases queue : (s.tgn.get c).ptq with
  | nil =>
    rw [newLineResync_of_empty queue]
    exact refuseLine ..
  | cons r rest =>
    rw [newLineResync_of_cons queue]
    have learned := of_lnb (s := s) (c := c) (l := { s.lnb.get c with
      state := .running, ringOfs := learnedOffset (p.ch.get c).srcLines k r.seq, unmatched := 0 })
      ((raiseReport_within (.channel c false (learnedOffset (p.ch.get c).srcLines k r.seq)) { s with
        tgn := s.tgn.set c { s.tgn.get c with ptq := rest }
        lnb := s.lnb.set c { s.lnb.get c with
          state := .running, ringOfs := learnedOffset (p.ch.get c).srcLines k r.seq, unmatched := 0 } }).lnb
        (by decide)) rfl rfl
    exact learned.trans (bindLine ..)

theorem newLine (p : Profile) (c : Ch) (k : Nat) (s : State) : SameBytesOut s (newLine p c k s) := by
  unfold Machine.newLine
  split
  · exact refuseLine ..
  · split
    · exact refuseLine ..
    · exact newLineResync ..
    · exact newLineRunning ..
    · exact .refl s

theorem takeBytes (p : Profile) (c : Ch) (b : Nat) (valid : List Byte) (s : State) :
    SameBytesOut s (takeBytes p c b valid s).1 := by
  cases filling : (s.lnb.get c).ctx with
  | none =>
    unfold Machine.takeBytes
    simp only [filling]
    exact .refl s
  | some n =>
    rw [takeBytes_of_some filling]
    unfold takenBytes
    dsimp only
    split
    · split
      · exact of_lnb ((evaluate_within ..).lnb (by decide)) rfl rfl
      · exact of_lnb rfl rfl rfl
    · exact of_lnb rfl rfl rfl

theorem handlePiece (p : Profile) (c : Ch) (o : Nat) (d : List Byte) (s : State) :
    SameBytesOut s (handlePiece p c o d s).1 := by
  unfold Machine.handlePiece
  dsimp only
  split
  · exact .refl s
  · split
    · exact of_lnb (lineFault_lnb ..) rfl rfl
    · exact takeBytes ..
    · exact ((endShort c s).trans (newLine ..)).trans (takeBytes ..)

end SameBytesOut

/-! ## The admission -/

theorem admitPiece_of_grant {s : State} {p : Profile} {g : Ingress} {c : Ch} {o n : Nat} (h : s.profile = some p)
    (granted : s.ingressGrant = some g) (part : s.nextPart g = .piece c o n) :
    admitPiece s = admitPieceOf p g c o n s := by
  unfold admitPiece
  simp only [h, granted, part]

/-- Settles O23: the binder's work, then the count and the queue. -/
theorem pieceAdmissionQueuesItsOutput : Obligations.PieceAdmissionQueuesItsOutput := by
  intro s p g c o n ready active granted part
  have admitted : exec .pieceAdmission s = .next (admitPieceOf p g c o n s) := by
    rw [← admitPiece_of_grant active granted part]
    exact congrArg Host.Outcome.next (outside_of_ready admitPiece ready)
  have blocks := admitPieceOf_within p g c o n s
  have bound := handlePiece_within p c o (g.data.take n) s
  have counts := SameBytesOut.handlePiece p c o (g.data.take n) s
  refine ⟨_, admitted, ?_⟩
  unfold admitPieceOf at blocks ⊢
  generalize handlePiece p c o (g.data.take n) s = r at blocks bound counts ⊢
  obtain ⟨u, writes⟩ := r
  have egu : u.egu = s.egu := bound.egu (by decide)
  dsimp only at blocks bound counts ⊢
  refine ⟨⟨?_, ?_, fun d ne => ?_, ?_, rfl, rfl, rfl, rfl⟩, ?_, rfl, ?_, ?_, blocks.mkt (by decide),
    blocks.wpu (by decide), blocks.pfl (by decide), blocks.pins (by decide)⟩
  · exact congrArg (fun e : Egu => e.egress ++ _) egu
  · show ((u.lnb.set c _).get c).bytesOut = _
    rw [Quad.get_set_self, ← counts.bytes c]
    rfl
  · show ((u.lnb.set c _).get d).bytesOut = _
    rw [Quad.get_set_of_ne _ _ ne]
    exact counts.bytes d
  · show u.lnb.set c _ = u.lnb.set c { u.lnb.get c with bytesOut := ((u.lnb.set c _).get c).bytesOut, wrapped := _ }
    rw [Quad.get_set_self, ← counts.bytes c, ← counts.wrapped c]
    rfl
  · exact Ingress.after_eq g n
  · show u.egu.downstream = s.egu.downstream
    rw [egu]
  · show u.egu.hostUp = s.egu.hostUp
    rw [egu]

end Sys2Proof.Machine
end

section
/-! The statement of a placement's output (sections 5.2 to 5.5). -/

namespace Sys2Proof.Machine

/-! ## The pixels of a sub-piece -/

/-- The bytes of pixel `x` of a line, in the bytes from `b` on (R81). -/
def ChanProfile.pixelAt (q : ChanProfile) (b : Nat) (data : List Byte) (x : Nat) : List Byte :=
  (data.drop (x * q.sIn - b)).take q.sIn

/-- The pixels of indices from `first` up to, not including, `last`. -/
def ChanProfile.pixelRun (q : ChanProfile) (b : Nat) (data : List Byte) (first last : Nat) : PixelRun :=
  { first := first, pixels := (List.range (last - first)).map fun i => q.pixelAt b data (first + i) }

theorem pairUp_dropped (l : List Byte) : (pairUp l).2 = l.length % 2 := by
  induction l using pairUp.induct with
  | case1 => rfl
  | case2 => rfl
  | case3 x y rest ih =>
    rw [pairUp, ih, List.length_cons, List.length_cons]
    omega

theorem pairUp_pairs (l : List Byte) :
    (pairUp l).1 = (List.range (l.length / 2)).map fun i => (l.drop (2 * i)).take 2 := by
  induction l using pairUp.induct with
  | case1 => rfl
  | case2 x => simp [pairUp]
  | case3 x y rest ih =>
    have count : (x :: y :: rest).length / 2 = rest.length / 2 + 1 := by
      rw [List.length_cons, List.length_cons]
      omega
    rw [pairUp, ih, count, List.range_succ_eq_map, List.map_cons, List.map_map]
    rfl

theorem toPixels_of_one {q : ChanProfile} {b : Nat} {data : List Byte} (h : q.sIn = 1) :
    q.toPixels b data = (q.pixelRun b data b (b + data.length), 0) := by
  unfold ChanProfile.toPixels ChanProfile.pixelRun ChanProfile.pixelAt
  simp only [h, if_true, Nat.add_sub_cancel_left, Nat.mul_one]
  refine Prod.ext (congrArg (PixelRun.mk b) (List.ext_getElem (by simp) fun i _ inside => ?_)) rfl
  rw [List.length_map, List.length_range] at inside
  simp only [List.getElem_map, List.getElem_range, List.take_one, List.head?_drop,
    List.getElem?_eq_getElem inside, Option.toList_some]

/-- Pairs of the bytes that stand `skip` behind byte `b`, where `b + skip` is even, are the pixels from there on. -/
theorem pairUp_eq_pixels {q : ChanProfile} {b first skip n : Nat} {data : List Byte} (h : q.sIn = 2)
    (start : first * 2 = b + skip) :
    (pairUp ((data.take n).drop skip)).1 =
      (q.pixelRun b data first (first + (min n data.length - skip) / 2)).pixels := by
  rw [pairUp_pairs]
  unfold ChanProfile.pixelRun ChanProfile.pixelAt
  simp only [h, Nat.add_sub_cancel_left, List.length_drop, List.length_take]
  refine List.map_congr_left fun i inside => ?_
  rw [List.mem_range] at inside
  rw [List.drop_drop, List.drop_take, List.take_take, show (first + i) * 2 - b = skip + 2 * i by omega]
  congr 1
  omega

theorem toPixels_of_two {q : ChanProfile} {b : Nat} {data : List Byte} (h : q.sIn = 2) :
    q.toPixels b data =
      (q.pixelRun b data ((b + 1) / 2) (min ((b + data.length) / 2) (q.lineBytes / 2)),
        min data.length (2 * (q.lineBytes / 2) - b) -
          2 * (min ((b + data.length) / 2) (q.lineBytes / 2) - (b + 1) / 2)) := by
  have run (n last last' : Nat) (same : last - n = last' - n) :
      q.pixelRun b data n last = q.pixelRun b data n last' := by
    unfold ChanProfile.pixelRun
    rw [same]
  have bytes : q.pixelBytes = 2 * (q.lineBytes / 2) := by rw [ChanProfile.pixelBytes, h]
  have differs : q.sIn ≠ 1 := by omega
  unfold ChanProfile.toPixels
  simp only [if_neg differs, bytes]
  generalize q.lineBytes / 2 = lines
  by_cases odd : b % 2 = 1
  · rw [if_pos odd]
    have pairs := pairUp_eq_pixels (q := q) (b := b) (first := (b + 1) / 2) (skip := 1) (n := 2 * lines - b)
      (data := data) h (by omega)
    have length : (data.take (2 * lines - b)).length = min (2 * lines - b) data.length := List.length_take
    cases taken : data.take (2 * lines - b) with
    | nil =>
      rw [taken, List.length_nil] at length
      rw [taken, List.drop_nil] at pairs
      refine Prod.ext ?_ (by dsimp only; omega)
      exact (congrArg (PixelRun.mk _) pairs).trans (run _ _ _ (by omega))
    | cons x rest =>
      rw [taken, List.length_cons] at length
      rw [taken, List.drop_one, List.tail_cons] at pairs
      refine Prod.ext ?_ (by dsimp only; rw [pairUp_dropped]; omega)
      exact (congrArg (PixelRun.mk _) pairs).trans (run _ _ _ (by omega))
  · rw [if_neg odd]
    have pairs := pairUp_eq_pixels (q := q) (b := b) (first := b / 2) (skip := 0) (n := 2 * lines - b)
      (data := data) h (by omega)
    rw [List.drop_zero] at pairs
    have half : (b + 1) / 2 = b / 2 := by omega
    rw [half]
    refine Prod.ext ?_ (by dsimp only; rw [pairUp_dropped, List.length_take]; omega)
    exact (congrArg (PixelRun.mk _) pairs).trans (run _ _ _ (by omega))

/-- The whole pixels of a sub-piece, and the bytes dropped (R81, R82). -/
theorem toPixels_eq {q : ChanProfile} {b : Nat} {data : List Byte} (h : q.sIn = 1 ∨ q.sIn = 2)
    (inside : b + data.length ≤ q.lineBytes) :
    let first := (b + q.sIn - 1) / q.sIn
    let last := min ((b + data.length) / q.sIn) (q.lineBytes / q.sIn)
    q.toPixels b data = (q.pixelRun b data first last,
      min data.length (q.sIn * (q.lineBytes / q.sIn) - b) - q.sIn * (last - first)) := by
  rcases h with one | two
  · rw [toPixels_of_one one, one]
    simp only [Nat.div_one, Nat.add_sub_cancel, Nat.min_eq_left inside, Nat.one_mul]
    exact congrArg _ (by omega)
  · rw [toPixels_of_two two, two]
    rfl

/-! ## The pixels kept -/

/-- What is kept of a run is a run (R83). -/
theorem trim_pixelRun (q : ChanProfile) (b : Nat) (data : List Byte) (first last : Nat) :
    q.trim (q.pixelRun b data first last) = q.pixelRun b data (max first q.trimLo) (min last q.trimHi) := by
  unfold ChanProfile.trim ChanProfile.pixelRun
  refine congrArg (PixelRun.mk _) (List.ext_getElem ?_ fun i _ _ => ?_)
  · simp only [List.length_drop, List.length_take, List.length_map, List.length_range]
    omega
  · simp only [List.getElem_drop, List.getElem_take, List.getElem_map, List.getElem_range]
    exact congrArg _ (by omega)

/-- The kept pixels in the order of their columns (R87, R88). -/
theorem ordered_pixelRun (q : ChanProfile) (b : Nat) (data : List Byte) (lo hi : Nat) :
    q.ordered (q.pixelRun b data lo hi) =
      (List.range (hi - lo)).map fun i => q.pixelAt b data (if q.mirror then hi - 1 - i else lo + i) := by
  unfold ChanProfile.ordered ChanProfile.pixelRun
  split
  · refine List.ext_getElem (by simp) fun i _ inside => ?_
    rw [List.length_map, List.length_range] at inside
    simp only [List.getElem_reverse, List.getElem_map, List.getElem_range, List.length_map, List.length_range]
    exact congrArg _ (by omega)
  · rfl

theorem firstColumn_pixelRun (q : ChanProfile) (b : Nat) (data : List Byte) {lo hi : Nat} (h : lo < hi) :
    q.firstColumn (q.pixelRun b data lo hi) =
      if q.mirror then q.colBase + (q.trimHi - hi) else q.colBase + (lo - q.trimLo) := by
  unfold ChanProfile.firstColumn ChanProfile.pixelRun
  rw [List.length_map, List.length_range, Nat.add_sub_cancel' (Nat.le_of_lt h)]

theorem pixelRun_isEmpty (q : ChanProfile) (b : Nat) (data : List Byte) (lo hi : Nat) :
    (q.pixelRun b data lo hi).pixels.isEmpty = decide (hi ≤ lo) := by
  unfold ChanProfile.pixelRun
  rw [Bool.eq_iff_iff, List.isEmpty_iff, List.map_eq_nil_iff, List.range_eq_nil, decide_eq_true_eq,
    Nat.sub_eq_zero_iff_le]

/-! ## The cut -/

theorem addr64_toNat {a : Nat} (h : a < 2 ^ 64) : (addr64 a).toNat = a := by
  rw [addr64, BitVec.toNat_ofNat]
  exact Nat.mod_eq_of_lt h

theorem cutPages_bytes (n a : Nat) (data : List Byte) : ((cutPages n a data).map (·.data)).flatten = data := by
  induction n generalizing a data with
  | zero => simp [cutPages]
  | succ n ih =>
    unfold cutPages
    dsimp only
    split
    · simp
    · rw [List.map_cons, List.flatten_cons, ih, List.take_append_drop]

/-- Each write of a cut stands behind the ones before it, and within one page (R90). -/
theorem cutPages_addresses {n a : Nat} {data : List Byte} (bytes : 0 < data.length) (fuel : data.length ≤ n)
    (inside : a + data.length ≤ 2 ^ 64) {i : Nat} {w : Write} (hw : (cutPages n a data)[i]? = some w) :
    w.addr.toNat = a + (((cutPages n a data).take i).map (·.data.length)).sum ∧ 0 < w.data.length ∧
      w.addr.toNat % 4096 + w.data.length ≤ 4096 := by
  induction n generalizing a data i with
  | zero => omega
  | succ n ih =>
    have start : (addr64 a).toNat = a := addr64_toNat (by omega)
    by_cases room : data.length ≤ 4096 - a % 4096
    · rw [cutPages_of_room (show data.length ≤ Config.pageBytes - a % Config.pageBytes from room)] at hw ⊢
      cases i with
      | succ i => simp at hw
      | zero =>
        obtain rfl : _ = w := Option.some.inj hw
        refine ⟨start, bytes, ?_⟩
        simp only [start]
        omega
    · have cut : cutPages (n + 1) a data =
          { addr := addr64 a, data := data.take (4096 - a % 4096) } ::
            cutPages n (a + (4096 - a % 4096))
              (data.drop (4096 - a % 4096)) := if_neg room
      rw [cut] at hw ⊢
      cases i with
      | zero =>
        obtain rfl : _ = w := Option.some.inj hw
        refine ⟨start, ?_, ?_⟩
        all_goals
          simp only [start, List.length_take]
          omega
      | succ i =>
        rw [List.getElem?_cons_succ] at hw
        have rest := ih (by rw [List.length_drop]; omega) (by rw [List.length_drop]; omega)
          (by rw [List.length_drop]; omega) hw
        obtain ⟨address, some, within⟩ := rest
        refine ⟨?_, some, within⟩
        rw [address, List.take_succ_cons, List.map_cons, List.sum_cons, List.length_take]
        omega

theorem cutPages_length {a : Nat} {data : List Byte} (bytes : 0 < data.length) (small : data.length ≤ 4096) :
    (cutPages data.length a data).length = if a % 4096 + data.length ≤ 4096 then 1 else 2 := by
  by_cases room : data.length ≤ 4096 - a % 4096
  · rw [cutPages_of_room (show data.length ≤ Config.pageBytes - a % Config.pageBytes from room), if_pos (by omega)]
    rfl
  · obtain ⟨n, hn⟩ := Nat.exists_eq_succ_of_ne_zero (Nat.ne_of_gt bytes)
    have cut : cutPages data.length a data =
        { addr := addr64 a, data := data.take (4096 - a % 4096) } ::
          cutPages n (a + (4096 - a % 4096))
            (data.drop (4096 - a % 4096)) := by
      rw [hn]
      exact if_neg room
    rw [cut, cutPages_of_room (show _ ≤ 4096 - (a + (4096 - a % 4096)) % 4096 by rw [List.length_drop]; omega), if_neg (by omega)]
    rfl

/-- Settles O28: the kept pixels are a run of the line's, and the cut is a recursion on the pages. -/
theorem outputIsCutAtPageBoundaries : Obligations.OutputIsCutAtPageBoundaries := by
  refine ⟨fun p q slot row b data width inside => ?_, fun a data nonEmpty inside => ?_⟩
  · intro lines first last lo hi x column bytes a
    have pixels : q.toPixels b data = (q.pixelRun b data first last,
        min data.length (q.sIn * lines - b) - q.sIn * (last - first)) := toPixels_eq width inside
    unfold placeSubPiece
    rw [pixels]
    dsimp only
    rw [trim_pixelRun, pixelRun_isEmpty]
    by_cases none : hi ≤ lo
    · rw [if_pos (by exact decide_eq_true none), if_pos none]
      exact ⟨rfl, rfl⟩
    · rw [if_neg (by exact fun h => none (of_decide_eq_true h)), if_neg none, ordered_pixelRun, placeAddr,
        firstColumn_pixelRun q b data (Nat.not_le.1 none), List.map_map]
      exact ⟨rfl, rfl⟩
  · have bytes := List.length_pos_iff.2 nonEmpty
    exact ⟨cutPages_bytes .., fun i w => cutPages_addresses bytes (Nat.le_refl _) inside, cutPages_length bytes⟩

end Sys2Proof.Machine
end

section
/-! SUPPORT. What is done channel by channel, and what the reset of a channel leaves (sections 3.7, 4.7 and 6.10). -/

namespace Sys2Proof.Machine

/-! ## Channel by channel -/

/-- An operation on each channel that leaves the others' part acts on each part once. -/
theorem forChannels_at {f : Ch → State → State} {α : Type} {view : Ch → State → α} {R : Ch → α → α → Prop}
    (own : ∀ c s, R c (view c s) (view c (f c s))) (other : ∀ c d s, d ≠ c → view d (f c s) = view d s) (s : State)
    (c : Ch) : R c (view c s) (view c (s.forChannels f)) := by
  simp only [State.forChannels, Ch.all, List.foldl_cons, List.foldl_nil]
  cases c with
  | ch0 =>
    rw [other .ch3 .ch0 _ (by decide), other .ch2 .ch0 _ (by decide), other .ch1 .ch0 _ (by decide)]
    exact own .ch0 s
  | ch1 =>
    have mine := own .ch1 (f .ch0 s)
    rw [other .ch3 .ch1 _ (by decide), other .ch2 .ch1 _ (by decide)]
    rwa [other .ch0 .ch1 s (by decide)] at mine
  | ch2 =>
    have mine := own .ch2 (f .ch1 (f .ch0 s))
    rw [other .ch3 .ch2 _ (by decide)]
    rwa [other .ch1 .ch2 _ (by decide), other .ch0 .ch2 _ (by decide)] at mine
  | ch3 =>
    have mine := own .ch3 (f .ch2 (f .ch1 (f .ch0 s)))
    rwa [other .ch2 .ch3 _ (by decide), other .ch1 .ch3 _ (by decide), other .ch0 .ch3 _ (by decide)] at mine

/-! ## What the Frame Table's work keeps, a channel's reset keeps -/

namespace KeptByFrames

variable {P : State → Prop}

theorem of_within (k : KeptByFrames P) {bs : List Block} {s t : State} (w : Within bs s t) (h : P s)
    (hb : bs ⊆ [.inReset, .pins, .wpu, .mkt, .tgn, .lnb, .frt, .egu, .pending] := by decide) : P t :=
  k.blind (w.mono hb) h

theorem expireHead (k : KeptByFrames P) (c : Ch) (s : State) (h : P s) : P (expireHead c s) := by
  unfold Machine.expireHead
  split
  · exact h
  · exact k.evaluate _ _ _ (k.setFrt _ _ (k.of_within (within_tgn (List.mem_singleton.2 rfl) s _) h))

theorem emptyQueue (k : KeptByFrames P) (c : Ch) (s : State) (h : P s) : P (emptyQueue c s) :=
  emptyQueue_keeps (k.expireHead c) h

theorem setLnb (k : KeptByFrames P) (s : State) (c : Ch) (l : Lnb) (h : P s) : P (s.setLnb c l) :=
  k.of_within (within_lnb (List.mem_singleton.2 rfl) s _) h

theorem endShort (k : KeptByFrames P) (c : Ch) (s : State) (h : P s) : P (endShort c s) := by
  have fault (kind : FaultKind) (i : Nat) (t : State) (ht : P t) : P (lineFault c kind i t) :=
    k.raiseReport _ _ (k.setLnb _ _ _ ht)
  unfold Machine.endShort
  dsimp only
  split
  · exact h
  · split
    · exact k.setLnb _ _ _ h
    · refine fault _ _ _ ?_
      split
      · exact k.setLnb _ _ _ h
      · exact k.evaluate _ _ _ (k.setFrt _ _ (k.setLnb _ _ _ h))

theorem channelLinkReset (k : KeptByFrames P) (c : Ch) (s : State) (h : P s) : P (channelLinkReset c s) := by
  unfold Machine.channelLinkReset
  split
  · exact k.emptyQueue _ _ (k.setLnb _ _ _ (k.endShort _ _ h))
  · exact h

end KeptByFrames

/-! ## A channel's own part -/

theorem channelLinkReset_of_kept {c : Ch} {s : State} (h : s.enabled c = false ∨ (s.lnb.get c).state = .fenced) :
    channelLinkReset c s = s := by
  refine if_neg ?_
  rw [Bool.and_eq_true, bne_iff_ne]
  rintro ⟨enabled, unfenced⟩
  rcases h with disabled | fenced
  · exact Bool.eq_false_iff.1 disabled enabled
  · exact unfenced fenced

theorem channelLinkReset_of_reset {c : Ch} {s : State} (enabled : s.enabled c = true)
    (unfenced : (s.lnb.get c).state ≠ .fenced) :
    channelLinkReset c s = emptyQueue c ((endShort c s).setLnb c
      { (endShort c s).lnb.get c with state := .resync, ctx := none, kL := none, unmatched := 0 }) :=
  if_pos (by rw [enabled, bne_iff_ne.2 unfenced]; rfl)

/-- The end of a line leaves the ring offset, and the other channels. -/
theorem endShort_ringOfs (c : Ch) (s : State) :
    ((endShort c s).lnb.get c).ringOfs = (s.lnb.get c).ringOfs ∧
      ∀ d, d ≠ c → (endShort c s).lnb.get d = s.lnb.get d := by
  cases filling : (s.lnb.get c).ctx with
  | none =>
    rw [endShort_of_empty filling]
    exact ⟨rfl, fun _ _ => rfl⟩
  | some n =>
    cases disp : n.disp with
    | placed serial slot row =>
      rw [endShort_lnb_of_placed filling disp, Quad.get_set_self]
      exact ⟨rfl, fun d ne => Quad.get_set_of_ne _ _ ne⟩
    | refused kind =>
      rw [endShort_of_refused filling disp, Quad.get_set_self]
      exact ⟨rfl, fun d ne => Quad.get_set_of_ne _ _ ne⟩

/-- A channel's part of the state, as its reset reads and sets it. -/
def State.channelPart (c : Ch) (s : State) : Bool × Lnb × Tgn := (s.enabled c, s.lnb.get c, s.tgn.get c)

/-- What a host-link reset makes of a channel's part (R76, R49). -/
def LinkResetOf (a b : Bool × Lnb × Tgn) : Prop :=
  (a.1 = true → a.2.1.state ≠ .fenced →
    b.2.1.state = .resync ∧ b.2.1.ctx = none ∧ b.2.1.kL = none ∧ b.2.1.unmatched = 0 ∧
      b.2.1.ringOfs = a.2.1.ringOfs ∧ b.2.2 = { a.2.2 with ptq := [] }) ∧
    (a.1 = false ∨ a.2.1.state = .fenced → b.2.1 = a.2.1 ∧ b.2.2 = a.2.2)

theorem channelLinkReset_own (c : Ch) (s : State) :
    LinkResetOf (s.channelPart c) ((channelLinkReset c s).channelPart c) := by
  refine ⟨fun enabled unfenced => ?_, fun kept => ?_⟩
  · unfold State.channelPart
    dsimp only
    rw [channelLinkReset_of_reset enabled unfenced, (emptyQueue_within ..).lnb (by decide), emptyQueue_tgn]
    simp only [State.setLnb, Quad.get_set_self, (endShort_within c s).tgn (by decide : Block.tgn ∉ lineBlocks)]
    exact ⟨trivial, trivial, trivial, trivial, (endShort_ringOfs c s).1, trivial⟩
  · rw [channelLinkReset_of_kept kept]
    exact ⟨rfl, rfl⟩

theorem channelLinkReset_other (c d : Ch) (s : State) (ne : d ≠ c) :
    (channelLinkReset c s).channelPart d = s.channelPart d := by
  have enabled : (channelLinkReset c s).enabled d = s.enabled d := (channelLinkReset_within c s).enabled (by decide) d
  unfold State.channelPart
  rw [enabled]
  by_cases reset : s.enabled c = true ∧ (s.lnb.get c).state ≠ .fenced
  · obtain ⟨on, unfenced⟩ := reset
    rw [channelLinkReset_of_reset on unfenced, (emptyQueue_within ..).lnb (by decide), emptyQueue_tgn,
      Quad.get_set_of_ne _ _ ne]
    simp only [State.setLnb, Quad.get_set_of_ne _ _ ne, (endShort_ringOfs c s).2 d ne,
      (endShort_within c s).tgn (by decide : Block.tgn ∉ lineBlocks)]
  · rw [channelLinkReset_of_kept (by rw [← Bool.not_eq_true]; tauto)]

/-! ## The Frame Table through notices and closures -/

/-- `e'` is the entry `e`, its done flags and counts apart. -/
structure FrameEntry.Same (e e' : FrameEntry) : Prop where
  serial : e'.serial = e.serial
  slot : e'.slot = e.slot
  ms : e'.ms = e.ms
  startSynth : e'.startSynth = e.startSynth
  fin : e'.fin = e.fin
  linkReset : e'.linkReset = e.linkReset
  header : e'.header = e.header

theorem FrameEntry.Same.refl (e : FrameEntry) : e.Same e := ⟨rfl, rfl, rfl, rfl, rfl, rfl, rfl⟩

theorem FrameEntry.Same.trans {a b c : FrameEntry} (h : a.Same b) (g : b.Same c) : a.Same c :=
  ⟨g.serial.trans h.serial, g.slot.trans h.slot, g.ms.trans h.ms, g.startSynth.trans h.startSynth, g.fin.trans h.fin,
    g.linkReset.trans h.linkReset, g.header.trans h.header⟩

/-- `g` is `f` after notices and evaluations: entries stay, or close with their trailers on the write list. -/
structure Frt.Noticed (f g : Frt) : Prop where
  serial : g.serial = f.serial
  slotPtr : g.slotPtr = f.slotPtr
  held : g.held = f.held
  closes : ∃ items, (∀ i ∈ items, i.kind = .trailer) ∧ g.writeList = f.writeList ++ items ∧
    ∀ e ∈ f.entries, (∃ e' ∈ g.entries, e.Same e') ∨
      e.fin.isSome ∧ ∃ i ∈ items, i.slot = e.slot ∧ i.serial = e.serial
  stays : ∀ e' ∈ g.entries, ∃ e ∈ f.entries, e.Same e'

namespace Frt.Noticed

theorem refl (f : Frt) : f.Noticed f :=
  ⟨rfl, rfl, rfl, ⟨[], nofun, (List.append_nil _).symm, fun e he => .inl ⟨e, he, .refl e⟩⟩, fun e he => ⟨e, he, .refl e⟩⟩

theorem trans {f g h : Frt} (a : f.Noticed g) (b : g.Noticed h) : f.Noticed h := by
  obtain ⟨items, trailers, list, closes⟩ := a.closes
  obtain ⟨items', trailers', list', closes'⟩ := b.closes
  refine ⟨b.serial.trans a.serial, b.slotPtr.trans a.slotPtr, b.held.trans a.held,
    ⟨items ++ items', ?_, by rw [list', list, List.append_assoc], fun e he => ?_⟩, fun e he => ?_⟩
  · simp only [List.mem_append]
    rintro i (hi | hi)
    · exact trailers i hi
    · exact trailers' i hi
  · rcases closes e he with ⟨e', he', same⟩ | ⟨fin, i, hi, slot, serial⟩
    · rcases closes' e' he' with ⟨e'', he'', same'⟩ | ⟨fin, i, hi, slot, serial⟩
      · exact .inl ⟨e'', he'', same.trans same'⟩
      · exact .inr ⟨same.fin ▸ fin, i, List.mem_append_right _ hi, slot.trans same.slot, serial.trans same.serial⟩
    · exact .inr ⟨fin, i, List.mem_append_left _ hi, slot, serial⟩
  · obtain ⟨e', he', same'⟩ := b.stays e he
    obtain ⟨e'', he'', same⟩ := a.stays e' he'
    exact ⟨e'', he'', same.trans same'⟩

/-- The entries replaced by entries the same but for done flags and counts. -/
theorem of_entries {f : Frt} {es : List FrameEntry} (closes : ∀ e ∈ f.entries, ∃ e' ∈ es, e.Same e')
    (stays : ∀ e' ∈ es, ∃ e ∈ f.entries, e.Same e') : f.Noticed { f with entries := es } :=
  ⟨rfl, rfl, rfl, ⟨[], nofun, (List.append_nil _).symm, fun e he => .inl (closes e he)⟩, stays⟩

theorem bump (k : CountKind) (c : Ch) (w : Pos) (f : Frt) :
    f.Noticed { f with entries := bumpEntry k c w f.entries } := by
  have same (es : List FrameEntry) : (∀ e ∈ es, ∃ e' ∈ bumpEntry k c w es, e.Same e') ∧
      ∀ e' ∈ bumpEntry k c w es, ∃ e ∈ es, e.Same e' := by
    induction es with
    | nil => exact ⟨nofun, nofun⟩
    | cons e es ih =>
      obtain ⟨closes, stays⟩ := ih
      unfold bumpEntry
      split
      · have counted : e.Same { e with counts := e.counts.set c ((e.counts.get c).bump k) } :=
          ⟨rfl, rfl, rfl, rfl, rfl, rfl, rfl⟩
        simp only [List.mem_cons, forall_eq_or_imp, exists_eq_or_imp]
        exact ⟨⟨.inl counted, fun x hx => .inr ⟨x, hx, .refl x⟩⟩, .inl counted, fun x hx => .inr ⟨x, hx, .refl x⟩⟩
      · simp only [List.mem_cons, forall_eq_or_imp, exists_eq_or_imp]
        exact ⟨⟨.inl (.refl e), fun x hx => .inr (closes x hx)⟩, .inl (.refl e), fun x hx => .inr (stays x hx)⟩
  exact of_entries (same f.entries).1 (same f.entries).2

theorem marked (s : State) (p : Profile) (cs : List Ch) (sel : FrameEntry → Bool) :
    s.frt.Noticed { s.frt with entries := s.marked p cs sel } := by
  have same (e : FrameEntry) : e.Same (if sel e then s.markDone p cs e else e) := by
    split
    · obtain ⟨done, -⟩ := s.markDone_spec p cs e
      rw [done]
      exact ⟨rfl, rfl, rfl, rfl, rfl, rfl, rfl⟩
    · exact .refl e
  refine of_entries (fun e he => ⟨_, List.mem_map_of_mem he, same e⟩) fun e' he' => ?_
  obtain ⟨e, he, rfl⟩ := List.mem_map.1 he'
  exact ⟨e, he, same e⟩

theorem closed (p : Profile) (s : State) : s.frt.Noticed (closeComplete p s).frt := by
  obtain ⟨items, frt, keys⟩ := closeComplete_frt p s
  rw [frt]
  refine ⟨rfl, rfl, rfl, ⟨items, fun i hi => ?_, rfl, fun e he => ?_⟩, fun e he =>
    ⟨e, (List.mem_filter.1 he).1, .refl e⟩⟩
  · have key : (i.kind, i.slot, i.serial) ∈ items.map fun i => (i.kind, i.slot, i.serial) := List.mem_map_of_mem hi
    rw [keys] at key
    obtain ⟨e, -, h⟩ := List.mem_map.1 key
    exact (congrArg Prod.fst h).symm
  · cases complete : e.complete p with
    | false => exact .inl ⟨e, List.mem_filter.2 ⟨he, by rw [complete]; rfl⟩, .refl e⟩
    | true =>
      have key : (ItemKind.trailer, e.slot, e.serial) ∈ items.map fun i => (i.kind, i.slot, i.serial) := by
        rw [keys]
        exact List.mem_map_of_mem (f := fun e : FrameEntry => (ItemKind.trailer, e.slot, e.serial))
          (List.mem_filter.2 ⟨he, complete⟩)
      obtain ⟨i, hi, h⟩ := List.mem_map.1 key
      rw [FrameEntry.complete, Bool.and_eq_true] at complete
      exact .inr ⟨complete.1, i, hi, congrArg (fun k => k.2.1) h, congrArg (fun k => k.2.2) h⟩

theorem evaluate (cs : List Ch) (sel : FrameEntry → Bool) (s : State) : s.frt.Noticed (evaluate cs sel s).frt := by
  cases active : s.profile with
  | none =>
    rw [show Machine.evaluate cs sel s = s from withProfile_of_none active]
    exact .refl _
  | some p =>
    rw [evaluate_of_profile active]
    exact Frt.Noticed.trans (by exact marked s p cs sel) (closed p (s.setEntries (s.marked p cs sel)))

theorem evaluate_after {f : Frt} {s : State} (h : f.Noticed s.frt) (cs : List Ch) (sel : FrameEntry → Bool) :
    f.Noticed (Machine.evaluate cs sel s).frt := h.trans (evaluate cs sel s)

theorem expireHead (c : Ch) (s : State) : s.frt.Noticed (expireHead c s).frt := by
  cases queue : (s.tgn.get c).ptq with
  | nil =>
    rw [expireHead_of_nil queue]
    exact .refl _
  | cons r rest =>
    rw [expireHead_of_cons queue]
    refine evaluate_after ?_ _ _
    exact bump .expired c r.w s.frt

theorem emptyQueue (c : Ch) (s : State) : s.frt.Noticed (emptyQueue c s).frt :=
  emptyQueue_keeps (P := fun t => s.frt.Noticed t.frt) (fun t h => h.trans (expireHead c t)) (.refl _)

theorem endShort (c : Ch) (s : State) : s.frt.Noticed (endShort c s).frt := by
  cases filling : (s.lnb.get c).ctx with
  | none =>
    rw [endShort_of_empty filling]
    exact .refl _
  | some n =>
    cases disp : n.disp with
    | refused kind =>
      rw [endShort_of_refused filling disp]
      exact .refl _
    | placed serial slot row =>
      cases record : n.record with
      | none =>
        rw [endShort_frt_of_bare filling disp record]
        exact .refl _
      | some r =>
        rw [endShort_frt_of_noticed filling disp record]
        refine evaluate_after ?_ _ _
        exact bump .short c r.w s.frt

theorem channelLinkReset (c : Ch) (s : State) : s.frt.Noticed (channelLinkReset c s).frt := by
  by_cases reset : s.enabled c = true ∧ (s.lnb.get c).state ≠ .fenced
  · obtain ⟨on, unfenced⟩ := reset
    rw [channelLinkReset_of_reset on unfenced]
    exact (endShort c s).trans (emptyQueue c (State.setLnb _ c _))
  · rw [channelLinkReset_of_kept (by rw [← Bool.not_eq_true]; tauto)]
    exact .refl _

end Frt.Noticed

/-! ## The dropped count -/

theorem joinQueue_dropped (r : Report) (s : State) :
    (joinQueue r s).1.rpu.dropped = s.rpu.dropped ∨ (joinQueue r s).1.rpu.dropped = min 65535 (s.rpu.dropped + 1) := by
  unfold joinQueue
  split
  · exact .inl rfl
  · split
    · exact .inl rfl
    · dsimp only
      split <;> exact .inr rfl

theorem admitReport_dropped (ev : ReportEvent) (s : State) :
    (admitReport ev s).1.rpu.dropped = s.rpu.dropped ∨
      (admitReport ev s).1.rpu.dropped = min 65535 (s.rpu.dropped + 1) := by
  cases active : s.profile with
  | none =>
    rw [admitReport_of_no_profile active]
    exact .inl rfl
  | some p =>
    cases folds : s.folds ev with
    | true =>
      rw [admitReport_of_folded folds]
      exact .inl rfl
    | false =>
      have fold := (setFold_queue ev s).2
      unfold admitReport
      simp only [active, folds, Bool.false_eq_true, if_false]
      split
      · rw [← fold]
        exact joinQueue_dropped _ _
      · exact .inl fold

/-- With room in the queue no report is dropped. -/
theorem admitReport_dropped_of_room {ev : ReportEvent} {s : State} (h : s.rpu.queue.length < 16) :
    (admitReport ev s).1.rpu.dropped = s.rpu.dropped := by
  obtain ⟨queue, dropped⟩ := setFold_queue ev s
  unfold admitReport
  split
  · rfl
  · split
    · rfl
    · dsimp only
      split
      · rw [joinQueue_of_room (by rw [queue]; exact h)]
        exact dropped
      · exact dropped

/-- The dropped count has reached `n`, within its range. -/
def DroppedFrom (n : Nat) (s : State) : Prop := n ≤ s.rpu.dropped ∧ s.rpu.dropped ≤ 65535

theorem DroppedFrom.of_count {n : Nat} {s t : State} (h : DroppedFrom n s)
    (count : t.rpu.dropped = s.rpu.dropped ∨ t.rpu.dropped = min 65535 (s.rpu.dropped + 1)) : DroppedFrom n t := by
  unfold DroppedFrom at *
  omega

theorem DroppedFrom.raiseReportsDropped {n : Nat} {s : State} (h : DroppedFrom n s) :
    DroppedFrom n (raiseReportsDropped s) := by
  unfold Machine.raiseReportsDropped
  split
  · exact h
  · exact DroppedFrom.of_count (s := putFlag .reportsDropped true s) h (admitReport_dropped ..)

theorem droppedFrom_keptByFrames (n : Nat) : KeptByFrames (DroppedFrom n) where
  blind w h := by
    unfold DroppedFrom
    rw [w.rpu (by decide)]
    exact h
  raiseReport ev s h := by
    have admitted := h.of_count (admitReport_dropped ev s)
    unfold Machine.raiseReport
    dsimp only
    split
    · exact admitted.raiseReportsDropped
    · exact admitted
  countClosure p s h := h.of_count (.inl (countClosure_queue p s).2)
  unfence s h := h.of_count (.inl (by rw [(deliver_false .channelFenced s).1]))

theorem dropRecord_droppedFrom {n : Nat} {s : State} (h : DroppedFrom n s) :
    DroppedFrom (min 65535 (n + 1)) (dropRecord s) := by
  refine DroppedFrom.raiseReportsDropped ?_
  unfold DroppedFrom satInc Config.sat16 at *
  dsimp only
  omega

theorem dropRecords_droppedFrom {k n : Nat} {s : State} (h : DroppedFrom n s) :
    DroppedFrom (min 65535 (n + k)) (repeatTimes dropRecord k s) := by
  induction k generalizing n s with
  | zero =>
    unfold DroppedFrom at *
    rw [repeatTimes]
    omega
  | succ k ih =>
    have rest := ih (dropRecord_droppedFrom h)
    rw [repeatTimes]
    unfold DroppedFrom at *
    omega

/-- A record dropped with REPORTS_DROPPED already SET, or with room for its report, is the only one. -/
theorem dropRecord_exact {s : State} (h : s.sau.flags.reportsDropped = true ∨ s.rpu.queue.length < 16) :
    (dropRecord s).rpu.dropped = min 65535 (s.rpu.dropped + 1) ∧
      (dropRecord s).sau.flags.reportsDropped = true := by
  refine ⟨?_, raiseReportsDropped_sets _⟩
  unfold dropRecord raiseReportsDropped
  split
  · rfl
  · rename_i clear
    have room : s.rpu.queue.length < 16 := h.resolve_left clear
    exact admitReport_dropped_of_room (s := putFlag .reportsDropped true _) room

theorem dropRecords_exact {k : Nat} {s : State} (count : s.rpu.dropped ≤ 65535)
    (h : s.sau.flags.reportsDropped = true ∨ s.rpu.queue.length < 16) :
    (repeatTimes dropRecord k s).rpu.dropped = min 65535 (s.rpu.dropped + k) := by
  induction k generalizing s with
  | zero =>
    rw [repeatTimes]
    omega
  | succ k ih =>
    obtain ⟨one, flag⟩ := dropRecord_exact h
    rw [repeatTimes, ih (by omega) (.inl flag)]
    omega

theorem reportsDropped_keptByFrames : KeptByFrames fun s => s.sau.flags.reportsDropped = true := by
  refine keptByFrames_of_sau (Q := fun a => a.flags.reportsDropped = true) (fun ev s h => ?_) fun s h => ?_
  · obtain ⟨-, -, -, kept⟩ := raiseReport_flags ev s
    exact kept h
  · obtain ⟨-, flags⟩ := deliver_false .channelFenced s
    exact (flags .reportsDropped (by decide)).trans h

theorem dropRecords_flag {k : Nat} {s : State} (h : 0 < k) :
    (repeatTimes dropRecord k s).sau.flags.reportsDropped = true := by
  obtain ⟨k, rfl⟩ := Nat.exists_eq_succ_of_ne_zero (Nat.ne_of_gt h)
  refine repeatTimes_keeps (P := fun t => t.sau.flags.reportsDropped = true) (fun t _ => ?_) k _ ?_
  all_goals exact raiseReportsDropped_sets _

/-! ## The writer -/

/-- The writer and the next report's seq are those of `r`. -/
def Rpu.Writes (r : Rpu) (s : State) : Prop := s.rpu.writer = r.writer ∧ s.rpu.seq = r.seq

theorem writes_keptByFrames (r : Rpu) : KeptByFrames r.Writes where
  blind w h := by
    unfold Rpu.Writes
    rw [w.rpu (by decide)]
    exact h
  raiseReport ev s h := by
    have same := Rpu.SameWriter.raiseReport ev s
    exact ⟨same.writer.trans h.1, same.seq.trans h.2⟩
  countClosure p s h := by
    unfold Machine.countClosure
    split
    · exact h
    · split <;> exact h
  unfence s h := by
    unfold Rpu.Writes
    rw [(deliver_false .channelFenced s).1]
    exact h

theorem dropRecords_writes {k : Nat} {r : Rpu} {s : State} (h : r.Writes s) : r.Writes (repeatTimes dropRecord k s) :=
  repeatTimes_keeps (P := r.Writes) (fun t ht => by
    have same := Rpu.SameWriter.raiseReportsDropped
      { t with rpu := { t.rpu with dropped := satInc Config.sat16 t.rpu.dropped } }
    exact ⟨same.writer.trans ht.1, same.seq.trans ht.2⟩) k s h

theorem WriteGroup.afterLinkReset_eq (g : WriteGroup) :
    g.afterLinkReset = if g.records = [] then none else some g := by
  simp only [WriteGroup.afterLinkReset, List.isEmpty_iff]

end Sys2Proof.Machine
end

section
/-! The statement of the host-link reset (sections 7.5, 4.7, 6.10 and 8.6). -/

namespace Sys2Proof.Machine

/-! ## The reset before the channels -/

/-- The state in which the channels are reset: the links and queues dropped, the lost records counted, the live entries
flagged (R134, R135). -/
def State.unlinked (s : State) : State :=
  flagLinkReset (repeatTimes dropRecord (s.egu.egress.filter (·.isRecord)).length (dropLinks s))

theorem droppedRecords_within (s : State) : Within [.egu, .rpu, .sau] s
    (repeatTimes dropRecord (s.egu.egress.filter (·.isRecord)).length (dropLinks s)) :=
  ((dropLinks_within s).mono (by decide)).trans
    (repeatTimes_within (fun t => (dropRecord_within t).mono (by decide)) _ _)

theorem unlinked_egu (s : State) : s.unlinked.egu =
    { s.egu with hostUp := false, grabberRunning := false, trained := false, egress := [],
                 ingress := none, downstream := [], flowOpen := false } :=
  (repeatTimes_within (fun t => dropRecord_within t) _ _).egu (by decide)

theorem unlinked_frt (s : State) : s.unlinked.frt = { s.frt with
    entries := s.frt.entries.map fun e => { e with linkReset := true }
    writeList := s.frt.writeList ++
      (s.frt.entries.filter fun e =>
        !s.frt.writeList.any fun i => i.kind == .header && i.serial == e.serial && i.slot == e.slot).map (·.header) } := by
  unfold State.unlinked flagLinkReset State.headerWaits
  rw [(droppedRecords_within s).frt (by decide)]

theorem unlinked_channelPart (s : State) (c : Ch) : s.unlinked.channelPart c = s.channelPart c := by
  have w : Within [.egu, .rpu, .sau, .frt] s s.unlinked :=
    ((droppedRecords_within s).mono (by decide)).trans ((flagLinkReset_within _).mono (by decide))
  simp only [State.channelPart, w.enabled (by decide), w.lnb (by decide : Block.lnb ∉ [.egu, .rpu, .sau, .frt]),
    w.tgn (by decide : Block.tgn ∉ [.egu, .rpu, .sau, .frt])]

theorem unlinked_rpu (s : State) : s.unlinked.rpu =
    (repeatTimes dropRecord (s.egu.egress.filter (·.isRecord)).length (dropLinks s)).rpu := rfl

/-! ## The channels -/

theorem linkReset_keeps {P : State → Prop} (kept : KeptByFrames P) {s : State} (h : P s.unlinked) : P (linkReset s) :=
  forChannels_keeps kept.channelLinkReset _ h

theorem linkReset_noticed (s : State) : s.unlinked.frt.Noticed (linkReset s).frt :=
  forChannels_keeps (P := fun t => s.unlinked.frt.Noticed t.frt)
    (fun c t h => h.trans (Frt.Noticed.channelLinkReset c t)) _ (.refl _)

theorem linkReset_channels (s : State) (c : Ch) : LinkResetOf (s.channelPart c) ((linkReset s).channelPart c) := by
  have channels := forChannels_at (R := fun _ => LinkResetOf) (view := State.channelPart) channelLinkReset_own
    channelLinkReset_other s.unlinked c
  rwa [unlinked_channelPart] at channels

/-- A channel with an EMPTY context and an empty queue is reset without a notice. -/
theorem channelLinkReset_of_idle {c : Ch} {s : State} (ctx : (s.lnb.get c).ctx = none)
    (queue : (s.tgn.get c).ptq = []) : (channelLinkReset c s).rpu = s.rpu := by
  by_cases reset : s.enabled c = true ∧ (s.lnb.get c).state ≠ .fenced
  · obtain ⟨on, unfenced⟩ := reset
    rw [channelLinkReset_of_reset on unfenced, endShort_of_empty ctx, emptyQueue, State.setLnb_tgn, queue]
    rfl
  · rw [channelLinkReset_of_kept (by rw [← Bool.not_eq_true]; tauto)]

/-- The channel has nothing to give up at a reset. -/
def State.idleChannels (s : State) : Prop := ∀ c, (s.lnb.get c).ctx = none ∧ (s.tgn.get c).ptq = []

theorem channelLinkReset_idleChannels {c : Ch} {s : State} (h : s.idleChannels) :
    (channelLinkReset c s).idleChannels := by
  intro d
  by_cases same : d = c
  · subst d
    obtain ⟨reset, kept⟩ := channelLinkReset_own c s
    by_cases changes : s.enabled c = true ∧ (s.lnb.get c).state ≠ .fenced
    · obtain ⟨-, ctx, -, -, -, tgn⟩ := reset changes.1 changes.2
      exact ⟨ctx, congrArg Tgn.ptq tgn⟩
    · obtain ⟨lnb, tgn⟩ := kept (by unfold State.channelPart; dsimp only; rw [← Bool.not_eq_true]; tauto)
      exact ⟨(congrArg Lnb.ctx lnb).trans (h c).1, (congrArg Tgn.ptq tgn).trans (h c).2⟩
  · have part := channelLinkReset_other c d s same
    have lnb : (channelLinkReset c s).lnb.get d = s.lnb.get d := congrArg (fun x => x.2.1) part
    have tgn : (channelLinkReset c s).tgn.get d = s.tgn.get d := congrArg (fun x => x.2.2) part
    exact ⟨(congrArg Lnb.ctx lnb).trans (h d).1, (congrArg Tgn.ptq tgn).trans (h d).2⟩

theorem linkReset_rpu_of_idle {s : State} (h : s.idleChannels) : (linkReset s).rpu = s.unlinked.rpu := by
  have idle : s.unlinked.idleChannels := fun c => by
    have part := unlinked_channelPart s c
    have lnb : s.unlinked.lnb.get c = s.lnb.get c := congrArg (fun x => x.2.1) part
    have tgn : s.unlinked.tgn.get c = s.tgn.get c := congrArg (fun x => x.2.2) part
    rw [lnb, tgn]
    exact h c
  have reset := forChannels_keeps (P := fun t => t.idleChannels ∧ t.rpu = s.unlinked.rpu)
    (fun c t ⟨empty, rpu⟩ =>
      ⟨channelLinkReset_idleChannels empty, (channelLinkReset_of_idle (empty c).1 (empty c).2).trans rpu⟩)
    s.unlinked ⟨idle, rfl⟩
  exact reset.2

/-- Settles O36: the links, then the channels, whose notices close entries. -/
theorem hostLinkReset : Obligations.HostLinkReset := by
  intro s ready up
  have taken : exec .hostLinkReset s = .next (linkReset s) :=
    congrArg Host.Outcome.next ((outside_of_ready hostReset ready).trans (if_pos up))
  have blocks := linkReset_within s
  have channels := forChannels_within (fun c t => channelLinkReset_within c t) s.unlinked
  have frames := linkReset_noticed s
  have writes : s.rpu.writer.bind (·.afterLinkReset) =
      s.rpu.writer.bind fun g => if g.records = [] then none else some g :=
    congrArg s.rpu.writer.bind (funext WriteGroup.afterLinkReset_eq)
  obtain ⟨writer, seq⟩ := linkReset_keeps (writes_keptByFrames (dropLinks s).rpu) (s := s)
    (dropRecords_writes ⟨rfl, rfl⟩)
  obtain ⟨items, trailers, list, closes⟩ := frames.closes
  have origins := frames.stays
  have fields := unlinked_frt s
  generalize hf : s.unlinked.frt = f at frames list closes origins fields
  refine ⟨_, taken, ?_, fun e he => ?_, ?_, ?_, ?_, blocks.mkt (by decide), blocks.wpu (by decide),
    blocks.pfl (by decide), blocks.pins (by decide), seq, writer.trans writes, ⟨fun count => ?_,
      fun count room idle => ?_, fun lost => ?_⟩, ⟨items, trailers, ?_, fun e he => ?_, fun e' he' => ?_⟩, fun c => ?_⟩
  · exact (channels.egu (by decide)).trans (unlinked_egu s)
  · obtain ⟨e', he', same⟩ := origins e he
    rw [fields] at he'
    obtain ⟨e'', -, rfl⟩ := List.mem_map.1 he'
    exact same.linkReset
  · exact frames.serial.trans (by rw [fields])
  · exact frames.slotPtr.trans (by rw [fields])
  · exact frames.held.trans (by rw [fields])
  · have from' : DroppedFrom s.rpu.dropped (dropLinks s) := ⟨Nat.le_refl _, count⟩
    exact (linkReset_keeps (droppedFrom_keptByFrames _) (s := s) (dropRecords_droppedFrom from')).1
  · rw [linkReset_rpu_of_idle idle, unlinked_rpu]
    exact dropRecords_exact (s := dropLinks s) count (.inr room)
  · exact linkReset_keeps reportsDropped_keptByFrames (s := s) (dropRecords_flag lost)
  · rw [list, fields]
  · have flagged : ({ e with linkReset := true } : FrameEntry) ∈ f.entries := by
      rw [fields]
      exact List.mem_map_of_mem (f := fun e : FrameEntry => { e with linkReset := true }) he
    rcases closes _ flagged with ⟨e', he', same⟩ | closed
    · exact .inl ⟨e', he', same.serial, same.slot, same.ms, same.startSynth, same.fin, same.header⟩
    · exact .inr closed
  · obtain ⟨e, he, same⟩ := origins e' he'
    rw [fields] at he
    obtain ⟨live, hlive, rfl⟩ := List.mem_map.1 he
    exact ⟨live, hlive, same.serial, same.slot, same.ms, same.startSynth, same.fin, same.header⟩
  · exact linkReset_channels s c

end Sys2Proof.Machine
end

section
/-! SUPPORT. The blocks at an activation or refusal, and the tests that end a load (sections 2.10, 3.8, 4.7, 9.6, 10.4
and 10.8). -/

namespace Sys2Proof.Machine

/-! ## The folding flags -/

theorem joinQueue_folded (r : Report) (s : State) : (joinQueue r s).1.rpu.folded = s.rpu.folded := by
  unfold joinQueue
  split
  · rfl
  · split
    · rfl
    · dsimp only
      split <;> rfl

/-- Only a LINE_FAULT sets a folding flag (R140). -/
theorem setFold_of_not_lineFault {ev : ReportEvent} (h : ∀ c kind i, ev ≠ .lineFault c kind i) (s : State) :
    s.setFold ev = s := by
  cases ev with
  | lineFault c kind i => exact absurd rfl (h c kind i)
  | _ => rfl

theorem admitReport_rpu_folded {ev : ReportEvent} (h : ∀ c kind i, ev ≠ .lineFault c kind i) (s : State) :
    (admitReport ev s).1.rpu.folded = s.rpu.folded := by
  unfold admitReport
  rw [setFold_of_not_lineFault h]
  split
  · rfl
  · split
    · rfl
    · dsimp only
      split
      · exact joinQueue_folded ..
      · rfl

theorem raiseReportsDropped_folded (s : State) : (raiseReportsDropped s).rpu.folded = s.rpu.folded := by
  unfold raiseReportsDropped
  split
  · rfl
  · exact admitReport_rpu_folded (by rintro _ _ _ ⟨⟩) (putFlag .reportsDropped true s)

theorem raiseReport_folded {ev : ReportEvent} (h : ∀ c kind i, ev ≠ .lineFault c kind i) (s : State) :
    (raiseReport ev s).rpu.folded = s.rpu.folded := by
  unfold raiseReport
  dsimp only
  split
  · exact (raiseReportsDropped_folded _).trans (admitReport_rpu_folded h s)
  · exact admitReport_rpu_folded h s

theorem deliver_folded (c : Cond) (v : Bool) (s : State) : (deliver c v s).rpu.folded = s.rpu.folded := by
  cases v with
  | false => rw [(deliver_false c s).1]
  | true =>
    unfold deliver raiseFlag
    rw [if_pos rfl]
    split
    · rfl
    · exact raiseReport_folded (by rintro _ _ _ ⟨⟩) _

/-! ## The SAU -/

theorem followConditions_keeps {P : State → Prop} (delivered : ∀ c v s, P s → P (deliver c v s)) {s : State}
    (h : P s) : P (followConditions s) := by
  have all (l : List Cond) : P (l.foldl (fun t c => deliver c (t.sau.cond.get c) t) s) := by
    induction l generalizing s with
    | nil => exact h
    | cons c l ih => exact ih (delivered c _ s h)
  unfold followConditions
  split
  · exact h
  · exact all _

theorem sauRestart_folded (s : State) : (sauRestart s).rpu.folded = s.rpu.folded :=
  followConditions_keeps (P := fun t => t.rpu.folded = s.rpu.folded)
    (fun c v t h => (deliver_folded c v t).trans h) ((deliver_folded ..).trans (deliver_folded ..))

/-- The speed unit at an activation (R162). -/
theorem sauRestart_sameSpeed (s : State) :
    Sau.SameSpeed { s.sau with speedT0 := some s.wpu.time, raw := 0, blockSum := 0, blockCount := 0 }
      (sauRestart s).sau := by
  let t : State :=
    { s with sau := { s.sau with speedT0 := some s.wpu.time, raw := 0, blockSum := 0, blockCount := 0 } }
  have followed := followConditions_keeps (P := fun u => t.sau.SameSpeed u.sau)
    (fun c v u h => h.trans (deliver_flags c v u).1)
    ((deliver_flags .speedHigh false t).1.trans (deliver_flags .speedLow false _).1)
  exact followed.trans ⟨rfl, rfl, rfl, rfl, rfl, rfl⟩

/-! ## The blocks reset under a profile -/

theorem tgnRestart_tgn (p : Profile) (c : Ch) (s : State) :
    (tgnRestart p c s).tgn = s.tgn.set c { s.tgn.get c with
      countdown := if (p.ch.get c).enable then some ((p.ch.get c).trgPhase + 1) else none, ptq := [] } := by
  unfold tgnRestart
  rw [emptyQueue_tgn]
  simp only [State.setTgn, Quad.get_set_self, Quad.set_set]

/-- Every countdown is loaded or stopped and every queue emptied (R51). -/
theorem restartBlocks_tgn (p : Profile) (s : State) (c : Ch) :
    (restartBlocks p s).tgn.get c = { s.tgn.get c with
      countdown := if (p.ch.get c).enable then some ((p.ch.get c).trgPhase + 1) else none, ptq := [] } := by
  have restarted := forChannels_at (f := tgnRestart p) (view := fun d t => t.tgn.get d)
    (R := fun d a b => b = { a with
      countdown := if (p.ch.get d).enable then some ((p.ch.get d).trgPhase + 1) else none, ptq := [] })
    (fun d t => by rw [tgnRestart_tgn, Quad.get_set_self])
    (fun d e t ne => by rw [tgnRestart_tgn, Quad.get_set_of_ne _ _ ne]) (mktRestart p s) c
  rw [(mktRestart_within p s).tgn (by decide)] at restarted
  unfold restartBlocks
  rw [(lnbRestart_within ..).tgn (by decide)]
  exact restarted

theorem lnbRestart_lnb (p : Profile) (s : State) (c : Ch) :
    (lnbRestart p s).lnb.get c = (s.lnb.get c).restart (p.ch.get c).enable := by
  have restarted := forChannels_at (f := fun d t => t.setLnb d ((t.lnb.get d).restart (p.ch.get d).enable))
    (view := fun d t => t.lnb.get d) (R := fun d a b => b = a.restart (p.ch.get d).enable)
    (fun d t => by rw [State.setLnb_lnb, Quad.get_set_self])
    (fun d e t ne => by rw [State.setLnb_lnb, Quad.get_set_of_ne _ _ ne]) s c
  unfold lnbRestart
  dsimp only
  split
  · rw [(deliver_within ..).lnb (by decide)]
    exact restarted
  · exact restarted

/-- Every channel is RESYNC or DISABLED afresh, its totals kept (R75). -/
theorem restartBlocks_lnb (p : Profile) (s : State) (c : Ch) :
    (restartBlocks p s).lnb.get c = { s.lnb.get c with
      state := if (p.ch.get c).enable then .resync else .disabled
      ctx := none, kL := none, ringOfs := 0, unmatched := 0 } := by
  have marks : (mktRestart p s).lnb = s.lnb := (deliverRepeat_within ..).lnb (by decide)
  unfold restartBlocks
  rw [lnbRestart_lnb, (forChannels_within (fun d t => tgnRestart_within p d t) _).lnb (by decide), marks]
  rfl

theorem lnbRestart_within_lines (p : Profile) (s : State) : Within [.lnb, .rpu, .sau] s (lnbRestart p s) := by
  have channels : Within [.lnb, .rpu, .sau] s
      (s.forChannels fun d t => t.setLnb d ((t.lnb.get d).restart (p.ch.get d).enable)) :=
    forChannels_within (fun d t => within_lnb (by decide) t _) s
  unfold lnbRestart
  dsimp only
  split
  · exact channels.trans ((deliver_within ..).mono (by decide))
  · exact channels

/-- The Frame Table takes the notices of the emptied queues. -/
theorem restartBlocks_noticed (p : Profile) (s : State) : s.frt.Noticed (restartBlocks p s).frt := by
  have marks : (mktRestart p s).frt = s.frt := (deliverRepeat_within ..).frt (by decide)
  unfold restartBlocks
  rw [(lnbRestart_within_lines p _).frt (by decide)]
  exact forChannels_keeps (P := fun t => s.frt.Noticed t.frt)
    (fun c t h => h.trans (Frt.Noticed.emptyQueue c (State.setTgn t c _))) _ (by rw [marks]; exact .refl _)

theorem lnbRestart_sameSpeed (p : Profile) (s : State) : s.sau.SameSpeed (lnbRestart p s).sau := by
  have channels : (s.forChannels fun d t => t.setLnb d ((t.lnb.get d).restart (p.ch.get d).enable)).sau = s.sau :=
    (forChannels_within (bs := [.lnb]) (fun d t => within_lnb (by decide) t _) s).sau (by decide)
  unfold lnbRestart
  dsimp only
  split
  · have delivered := (deliver_flags .channelFenced false
      (s.forChannels fun d t => t.setLnb d ((t.lnb.get d).restart (p.ch.get d).enable))).1
    rwa [channels] at delivered
  · rw [channels]
    exact .refl _

theorem mktRestart_sameSpeed (p : Profile) (s : State) : s.sau.SameSpeed (mktRestart p s).sau := by
  unfold mktRestart
  generalize hu : State.setMkt _ _ = u
  have same : u.sau = s.sau := by rw [← hu]; rfl
  rw [← same]
  exact (deliver_flags .repeatLong false u).1.trans (deliver_flags .repeatShort false _).1

/-- The speed unit is not reset with the blocks (R174). -/
theorem restartBlocks_sameSpeed (p : Profile) (s : State) : s.sau.SameSpeed (restartBlocks p s).sau := by
  have kept := sameSpeed_keptByFrames s.sau
  have emptied : s.sau.SameSpeed ((mktRestart p s).forChannels (tgnRestart p)).sau :=
    forChannels_keeps (P := fun t => s.sau.SameSpeed t.sau)
      (fun c t h => kept.emptyQueue c (State.setTgn t c _) h) _ (mktRestart_sameSpeed p s)
  exact emptied.trans (lnbRestart_sameSpeed p _)

/-! ## Activation -/

section
variable (n : BitVec 2) (p : Profile) (refused : Option (BitVec 2)) (s : State)

/-- The state whose blocks an activation resets: the profile is active. -/
def State.activated : State := s.setPfl { s.pfl with
  active := some { number := n, prof := p }, target := none, refused := refused, loader := .running, staging := none }

theorem activate_eq : activate n p refused s = sauRestart (clearFolding
    { restartBlocks p (s.activated n p refused) with
      frt := { (restartBlocks p (s.activated n p refused)).frt with slotPtr := 0 } }) := rfl

theorem activate_within_reports : Within [.frt, .rpu, .sau] (restartBlocks p (s.activated n p refused))
    (activate n p refused s) := by
  rw [activate_eq]
  exact ((within_frt (by decide) (restartBlocks p (s.activated n p refused)) _).trans
    ((clearFolding_within _).mono (by decide))).trans ((sauRestart_within _).mono (by decide))

theorem activate_frt : (activate n p refused s).frt.slotPtr = 0 ∧
    (activate n p refused s).frt.serial = s.frt.serial := by
  have noticed := restartBlocks_noticed p (s.activated n p refused)
  rw [activate_eq, (sauRestart_within _).frt (by decide), (clearFolding_within _).frt (by decide)]
  exact ⟨rfl, noticed.serial⟩

theorem activate_mkt : (activate n p refused s).mkt = s.mkt.restart p (s.pins.mark != p.markActiveLow) := by
  rw [(activate_within_reports n p refused s).mkt (by decide), restartBlocks_mkt]
  rfl

theorem activate_folded : (activate n p refused s).rpu.folded = [] := by
  rw [activate_eq, sauRestart_folded]
  rfl

theorem activate_sameSpeed :
    Sau.SameSpeed { s.sau with speedT0 := some s.wpu.time, raw := 0, blockSum := 0, blockCount := 0 }
      (activate n p refused s).sau := by
  have reset := restartBlocks_sameSpeed p (s.activated n p refused)
  have time : (restartBlocks p (s.activated n p refused)).wpu = s.wpu := (restartBlocks_within ..).wpu (by decide)
  rw [activate_eq]
  generalize restartBlocks p (s.activated n p refused) = r at reset time ⊢
  generalize hv : clearFolding { r with frt := { r.frt with slotPtr := 0 } } = v
  have sau : v.sau = r.sau := by rw [← hv]; rfl
  have wpu : v.wpu = s.wpu := by rw [← time, ← hv]; rfl
  have restarted := sauRestart_sameSpeed v
  rw [sau, wpu] at restarted
  have kept : Sau.SameSpeed { s.sau with speedT0 := some s.wpu.time, raw := 0, blockSum := 0, blockCount := 0 }
      { r.sau with speedT0 := some s.wpu.time, raw := 0, blockSum := 0, blockCount := 0 } :=
    ⟨rfl, rfl, rfl, rfl, reset.speedAvg, reset.clearRef⟩
  exact kept.trans restarted

end

/-! ## The tests for a request -/

theorem testRequest_pfl_of_running {s : State} (h : s.pfl.loader = .running) :
    (testRequest s).pfl = s.pfl ∨
      (testRequest s).pfl = { s.pfl with target := some s.pfl.pselStable, loader := .draining } := by
  unfold testRequest
  simp only [h]
  split
  · exact .inr rfl
  · exact .inl rfl

theorem testRequest_pfl_of_fallback {s : State} (h : s.pfl.loader = .fallback) :
    (testRequest s).pfl = s.pfl ∨
      (testRequest s).pfl = { s.pfl with target := some s.pfl.pselStable, loader := .awaitingStore } := by
  unfold testRequest
  simp only [h]
  split
  · exact .inr rfl
  · exact .inl rfl

/-- The loader in FALLBACK, or gone on to a value the selector shows (R166, R169). -/
theorem enterFallback_pfl (s : State) :
    (enterFallback s).pfl = { s.pfl with loader := .fallback, target := none, staging := none, owner := .free } ∨
      (enterFallback s).pfl = { s.pfl with
        loader := .awaitingStore, target := some s.pfl.pselStable, staging := none, owner := .free } := by
  have fallen := (deliver_within .profileFallback true (s.setPfl
    { s.pfl with loader := .fallback, target := none, staging := none, owner := .free })).pfl (by decide)
  have tested := testRequest_pfl_of_fallback (congrArg Pfl.loader fallen)
  rw [fallen] at tested
  exact tested

/-- PROFILE_FALLBACK holds (R166). -/
theorem enterFallback_sau (s : State) :
    (enterFallback s).sau.cond.profileFallback = true ∧ (enterFallback s).sau.flags.profileFallback = true ∧
      s.sau.SameSpeed (enterFallback s).sau := by
  unfold enterFallback
  rw [(testRequest_within _).sau (by decide)]
  obtain ⟨speed, cond, flag, -⟩ := deliver_flags .profileFallback true (s.setPfl
    { s.pfl with loader := .fallback, target := none, staging := none, owner := .free })
  exact ⟨by rw [cond]; rfl, flag rfl, speed⟩

theorem enterFallback_within_loader (s : State) : Within [.pfl, .rpu, .sau] s (enterFallback s) :=
  ((within_pfl (by decide) s _).trans ((deliver_within ..).mono (by decide))).trans
    ((testRequest_within _).mono (by decide))

end Sys2Proof.Machine
end

section
/-! The statements of the end of a load (sections 10.4 and 10.8). -/

namespace Sys2Proof.Machine

/-! ## The end of a read -/

theorem exec_loadReadEnd {s : State} (header record : List Byte) (h : s.ready = true) :
    exec (.loadReadEnd header record) s = .next (takeReadEnd header record s) :=
  congrArg Host.Outcome.next (outside_of_ready (takeReadEnd header record) h)

section
variable {s : State} {n : BitVec 2} {header record : List Byte}

/-- The bytes read stand in the staging copy, and the last transaction is over. -/
def State.staged (s : State) (g : Staging) : State := s.setPfl { s.pfl with staging := some g, transaction := none }

/-- So they do, and the store is FREE (R171). -/
def State.stagedFree (s : State) (g : Staging) : State :=
  s.setPfl { s.pfl with staging := some g, transaction := none, owner := .free }

theorem takeReadEnd_of_accepted (loading : s.pfl.loader = .loading) (target : s.pfl.target = some n)
    (accepted : judge { header := header, record := record } n = none) :
    takeReadEnd header record s =
      loadAccepted n (decodeProfile record) (s.stagedFree { header := header, record := record }) := by
  unfold takeReadEnd finishLoad
  simp only [target, loading, readStore_of_acceptable accepted, accepted, State.stagedFree, State.setPfl]

theorem takeReadEnd_of_refused {why : Reason} (loading : s.pfl.loader = .loading) (target : s.pfl.target = some n)
    (refused : judge { header := header, record := record } n = some why) :
    takeReadEnd header record s = loadRefused n why (s.stagedFree (readStore n header record)) := by
  unfold takeReadEnd finishLoad
  simp only [target, loading, judge_readStore, refused, State.stagedFree, State.setPfl]

theorem takeReadEnd_of_startUp (initial : s.pfl.loader = .loadingInitial) (target : s.pfl.target = some n) :
    takeReadEnd header record s = finishStartUp n (s.staged (readStore n header record)) := by
  unfold takeReadEnd
  simp only [target, initial, State.staged, State.setPfl]

end

/-! ## Loads outside start-up -/

/-- After the activation only reports, PROFILE_FALLBACK and the test for a request follow (R173, R169). -/
theorem loadAccepted_announces (n : BitVec 2) (p : Profile) (s : State) :
    ∃ u, loadAccepted n p s = testRequest u ∧ Within [.rpu, .sau] (activate n p none s) u ∧
      (activate n p none s).sau.SameSpeed u.sau ∧ u.rpu.folded = [] ∧ AlertInv u := by
  have alert : AlertInv (activate n p none s) := evalAlert_alertInv _
  have folded := activate_folded n p none s
  unfold loadAccepted
  dsimp only
  generalize activate n p none s = a at alert folded ⊢
  have reported (b : State) (w : Within [.rpu, .sau] a b) (speed : a.sau.SameSpeed b.sau) (empty : b.rpu.folded = [])
      (inv : AlertInv b) : Within [.rpu, .sau] a (raiseReport (.profile true n n none) b) ∧
        a.sau.SameSpeed (raiseReport (.profile true n n none) b).sau ∧
        (raiseReport (.profile true n n none) b).rpu.folded = [] ∧
        AlertInv (raiseReport (.profile true n n none) b) :=
    ⟨w.trans ((raiseReport_within ..).mono (by decide)), speed.trans (raiseReport_flags ..).1,
      (raiseReport_folded (by rintro _ _ _ ⟨⟩) b).trans empty, raiseReport_alertInv inv⟩
  split
  · exact ⟨_, rfl, reported _ ((deliver_within ..).mono (by decide)) (deliver_flags ..).1
      ((deliver_folded ..).trans folded) (deliver_alertInv alert)⟩
  · exact ⟨_, rfl, reported _ (.refl ..) (.refl _) folded alert⟩

/-- Settles O46: the activation, with what it announces. -/
theorem acceptedLoadBecomesActive : Obligations.AcceptedLoadBecomesActive := by
  intro s n header record ready loading target accepted
  refine ⟨_, exec_loadReadEnd header record ready, ?_⟩
  rw [takeReadEnd_of_accepted loading target accepted]
  generalize hp : decodeProfile record = p
  generalize hv : s.stagedFree { header := header, record := record } = v
  have rest : Within [.pfl] s v := by
    rw [← hv]
    exact within_pfl (by decide) s _
  obtain ⟨u, announced, reports, speed, folded, alert⟩ := loadAccepted_announces n p v
  have tested := testRequest_within u
  have blocks := restartBlocks_within p (v.activated n p none)
  have after := activate_within_reports n p none v
  have same : Within [.pfl, .rpu, .sau] (activate n p none v) (testRequest u) :=
    (reports.mono (by decide)).trans (tested.mono (by decide))
  have whole := loadAccepted_within n p v
  have egu := loadAccepted_egu n p v
  rw [announced] at whole egu ⊢
  have running : u.pfl = { s.pfl with
      active := some { number := n, prof := p }, target := none, refused := none, loader := .running, staging := none
      transaction := none, owner := .free } := by
    rw [reports.pfl (by decide), activate_pfl, ← hv]
    rfl
  have request := testRequest_pfl_of_running (congrArg Pfl.loader running)
  rw [running] at request
  have kept : (testRequest u).pfl = { s.pfl with
      active := some { number := n, prof := p }, target := (testRequest u).pfl.target, refused := none
      loader := (testRequest u).pfl.loader, staging := none, transaction := none, owner := .free } := by
    rcases request with h | h <;> rw [h]
  have timed := (activate_sameSpeed n p none v).trans speed
  rw [rest.sau (by decide), rest.wpu (by decide), ← tested.sau (by decide)] at timed
  obtain ⟨slotPtr, serial⟩ := activate_frt n p none v
  refine ⟨⟨congrArg Pfl.active kept, fun c => ?_, fun c => ?_, ?_⟩, congrArg Pfl.refused kept,
    congrArg Pfl.staging kept, congrArg Pfl.transaction kept, congrArg Pfl.owner kept, ?_, ?_, ?_, ?_, timed.speedT0,
    timed.raw, timed.blockSum, timed.blockCount, timed.speedAvg, ?_, ?_, ?_, ?_⟩
  · rw [same.tgn (by decide), after.tgn (by decide), restartBlocks_tgn]
    exact congrArg (fun q : Quad Tgn => ({ q.get c with countdown := _, ptq := [] } : Tgn)) (rest.tgn (by decide))
  · rw [same.lnb (by decide), after.lnb (by decide), restartBlocks_lnb]
    exact congrArg (fun q : Quad Lnb => ({ q.get c with
      state := _, ctx := none, kL := none, ringOfs := 0, unmatched := 0 } : Lnb)) (rest.lnb (by decide))
  · rw [same.mkt (by decide), activate_mkt, rest.mkt (by decide), rest.pins (by decide)]
    rfl
  · rcases request with h | h
    · exact .inl ⟨by rw [h], by rw [h]⟩
    · exact .inr ⟨by rw [h], by rw [h]⟩
  · rw [same.frt (by decide), slotPtr]
  · rw [same.frt (by decide), serial, rest.frt (by decide)]
  · rw [tested.rpu (by decide), folded]
  · exact alertInv_keptByLoads.testRequest u alert
  · rw [whole.wpu (by decide), rest.wpu (by decide)]
  · rw [egu, rest.egu (by decide)]
  · rw [whole.pins (by decide), rest.pins (by decide)]

/-- With a profile active a refusal resets the blocks under it, and announces itself (R174, R169). -/
theorem loadRefused_announces {n : BitVec 2} {why : Reason} {s : State} {a : ActiveProfile} (h : s.pfl.active = some a) :
    ∃ u, loadRefused n why s = testRequest u ∧
      Within [.rpu, .sau] (restartBlocks a.prof (s.setPfl
        { s.pfl with refused := some n, target := none, staging := none, loader := .running })) u ∧
      s.sau.SameSpeed u.sau ∧ u.rpu.folded = [] := by
  unfold loadRefused
  simp only [h]
  have speed := restartBlocks_sameSpeed a.prof (s.setPfl
    { s.pfl with refused := some n, target := none, staging := none, loader := .running })
  simp only [h] at speed
  generalize restartBlocks a.prof _ = r at speed ⊢
  have cleared : (clearFolding r).sau = r.sau := rfl
  have reported := (raiseReport_flags (.profile false n a.number (some why)) (clearFolding r)).1
  rw [cleared] at reported
  exact ⟨_, rfl, ((clearFolding_within r).mono (by decide)).trans ((raiseReport_within ..).mono (by decide)),
    speed.trans reported, raiseReport_folded (by rintro _ _ _ ⟨⟩) _⟩

theorem loadRefused_of_none {n : BitVec 2} {why : Reason} {s : State} (h : s.pfl.active = none) :
    loadRefused n why s = enterFallback (s.setPfl
      { s.pfl with refused := some n, target := none, staging := none, loader := .running }) := by
  unfold loadRefused
  simp only [h]

/-- Settles O47: the blocks are reset under the kept profile, or FALLBACK is entered. -/
theorem refusedLoadKeepsTheActiveProfile : Obligations.RefusedLoadKeepsTheActiveProfile := by
  intro s n header record why ready loading target refused
  refine ⟨_, exec_loadReadEnd header record ready, ?_⟩
  rw [takeReadEnd_of_refused loading target refused]
  generalize readStore n header record = g
  have whole := loadRefused_within n why (s.stagedFree g)
  have egu := loadRefused_egu n why (s.stagedFree g)
  cases active : s.pfl.active with
  | some a =>
    obtain ⟨u, announced, reports, speed, folded⟩ := loadRefused_announces (n := n) (why := why)
      (s := s.stagedFree g) (a := a) active
    rw [announced] at whole egu ⊢
    generalize hv : (s.stagedFree g).setPfl { (s.stagedFree g).pfl with
      refused := some n, target := none, staging := none, loader := .running } = v at reports
    have rest : Within [.pfl] s v := by
      rw [← hv]
      exact within_pfl (by decide) s _
    have tested := testRequest_within u
    have running : u.pfl = { s.pfl with
        refused := some n, target := none, staging := none, transaction := none, owner := .free
        loader := .running } := by
      rw [reports.pfl (by decide), restartBlocks_pfl, ← hv]
      rfl
    have request := testRequest_pfl_of_running (congrArg Pfl.loader running)
    rw [running] at request
    have kept : (testRequest u).pfl = { s.pfl with
        refused := some n, target := (testRequest u).pfl.target, staging := none, transaction := none, owner := .free
        loader := (testRequest u).pfl.loader } := by
      rcases request with h | h <;> rw [h]
    have noticed := restartBlocks_noticed a.prof v
    rw [← tested.sau (by decide)] at speed
    have frt : (testRequest u).frt = (restartBlocks a.prof v).frt := by
      rw [tested.frt (by decide), reports.frt (by decide)]
    rw [rest.frt (by decide), ← frt] at noticed
    have mkt : (testRequest u).mkt = v.mkt.restart a.prof (v.markActive v.pins.mark) := by
      rw [tested.mkt (by decide), reports.mkt (by decide), restartBlocks_mkt]
    refine ⟨(congrArg Pfl.active kept).trans active, congrArg Pfl.refused kept, congrArg Pfl.staging kept,
      congrArg Pfl.transaction kept, congrArg Pfl.owner kept, noticed.slotPtr, noticed.serial, whole.wpu (by decide),
      egu, whole.pins (by decide), speed.speedT0, speed.raw, speed.blockSum, speed.blockCount, speed.speedAvg, fun b hb => ?_,
      fun none => absurd none (Option.some_ne_none a)⟩
    · obtain rfl : a = b := Option.some.inj hb
      refine ⟨fun c => ?_, fun c => ?_, ?_, ?_, ?_, ?_, ?_, ?_⟩
      · rw [tested.tgn (by decide), reports.tgn (by decide), restartBlocks_tgn]
        exact congrArg (fun q : Quad Tgn => ({ q.get c with countdown := _, ptq := [] } : Tgn)) (rest.tgn (by decide))
      · rw [tested.lnb (by decide), reports.lnb (by decide), restartBlocks_lnb]
        exact congrArg (fun q : Quad Lnb => ({ q.get c with
          state := _, ctx := none, kL := none, ringOfs := 0, unmatched := 0 } : Lnb)) (rest.lnb (by decide))
      · rw [mkt]
        rfl
      · rw [mkt]
        rfl
      · rw [mkt]
        rfl
      · rw [mkt]
        rfl
      · rw [tested.rpu (by decide), folded]
      · rcases request with h | h <;> rw [h]
        · exact .inl rfl
        · exact .inr rfl
  | none =>
    rw [loadRefused_of_none (s := s.stagedFree g) active] at whole egu ⊢
    generalize hv : (s.stagedFree g).setPfl { (s.stagedFree g).pfl with
      refused := some n, target := none, staging := none, loader := .running } = v at whole egu ⊢
    have pfl : v.pfl = { s.pfl with
        refused := some n, target := none, staging := none, transaction := none, owner := .free
        loader := .running } := by
      rw [← hv]
      rfl
    have rest : Within [.pfl] s v := by
      rw [← hv]
      exact within_pfl (by decide) s _
    have entered : Within [.pfl, .rpu, .sau] s (enterFallback v) :=
      (rest.mono (by decide)).trans (enterFallback_within_loader v)
    have request := enterFallback_pfl v
    rw [pfl] at request
    have kept : (enterFallback v).pfl = { s.pfl with
        refused := some n, target := (enterFallback v).pfl.target, staging := none, transaction := none
        owner := .free, loader := (enterFallback v).pfl.loader } := by
      rcases request with h | h <;> rw [h]
    obtain ⟨cond, flag, speed⟩ := enterFallback_sau v
    rw [rest.sau (by decide)] at speed
    refine ⟨(congrArg Pfl.active kept).trans active, congrArg Pfl.refused kept, congrArg Pfl.staging kept,
      congrArg Pfl.transaction kept, congrArg Pfl.owner kept, ?_, ?_, entered.wpu (by decide),
      entered.egu (by decide), entered.pins (by decide), speed.speedT0, speed.raw, speed.blockSum, speed.blockCount, speed.speedAvg,
      fun a some => absurd some.symm (Option.some_ne_none a), fun _ =>
      ⟨cond, flag, entered.mkt (by decide), entered.tgn (by decide), entered.lnb (by decide), entered.frt (by decide),
        ?_⟩⟩
    · rw [entered.frt (by decide)]
    · rw [entered.frt (by decide)]
    · rcases request with h | h <;> rw [h]
      · exact .inl rfl
      · exact .inr rfl

end Sys2Proof.Machine
end

section
/-! The statement of the start-up load (sections 10.4 and 7.5). -/

namespace Sys2Proof.Machine

/-! ## The grabber link at the end of start-up -/

/-- The grabber link runs once the loader has left LOADING_INITIAL with the host link UP (R133). -/
theorem released_grabberRunning (s : State) :
    (refreshFlow (releaseGrabber s)).egu.grabberRunning =
      (s.egu.grabberRunning || s.egu.hostUp && s.pfl.loader != .loadingInitial) := by
  unfold releaseGrabber
  cases release : s.egu.hostUp && s.pfl.loader != .loadingInitial with
  | false => exact (Bool.or_false _).symm
  | true => exact (Bool.or_true _).symm

theorem released_within (s : State) : Within [.egu] s (refreshFlow (releaseGrabber s)) :=
  (releaseGrabber_within s).trans (refreshFlow_within _)

/-! ## The outcomes -/

section
variable {s : State} {n : BitVec 2} {g : Staging}

theorem finishStartUp_of_accepted (accepted : judge g n = none) :
    finishStartUp n (s.staged g) = startUpDone n (activate n (decodeProfile g.record)
      (if s.pfl.firstReason.isSome then s.pfl.refused else none) (s.staged g)) := by
  unfold finishStartUp
  simp only [State.staged, State.setPfl, accepted]
  rfl

theorem finishStartUp_of_second {why : Reason} (refused : judge g n = some why)
    (second : s.pfl.firstReason.isSome = true) :
    finishStartUp n (s.staged g) = refreshFlow (releaseGrabber (enterFallback (s.staged g))) := by
  unfold finishStartUp
  simp only [State.staged, State.setPfl, refused, second, if_true]

theorem finishStartUp_of_first {why : Reason} (refused : judge g n = some why) (first : s.pfl.firstReason = none) :
    finishStartUp n (s.staged g) =
      if n = 0 then refreshFlow (releaseGrabber (enterFallback (s.setPfl { s.pfl with
        firstReason := some why, refused := some n, staging := none, transaction := none })))
      else s.setPfl { s.pfl with
        firstReason := some why, refused := some n, staging := none, target := some 0, transaction := some headerRead } := by
  unfold finishStartUp
  simp only [State.staged, State.setPfl, refused, first, Option.isSome_none, Bool.false_eq_true, if_false]

end

/-- The start-up load ends with a profile active (R165, R167, R169, R133). -/
theorem startUpDone_spec {n : BitVec 2} {s : State} (running : s.pfl.loader = .running) :
    ((startUpDone n s).pfl = { s.pfl with owner := .free } ∨
      (startUpDone n s).pfl =
        { s.pfl with owner := .free, target := some s.pfl.pselStable, loader := .draining }) ∧
      (startUpDone n s).egu.grabberRunning = (s.egu.grabberRunning || s.egu.hostUp) ∧
      Within [.egu, .rpu, .sau, .pfl] s (startUpDone n s) := by
  unfold startUpDone
  generalize ReportEvent.start _ _ _ = e
  have freed : Within [.pfl] s (s.setPfl { s.pfl with owner := .free }) := within_pfl (by decide) s _
  have reported := raiseReport_within e (s.setPfl { s.pfl with owner := .free })
  have pfl : (raiseReport e (s.setPfl { s.pfl with owner := .free })).pfl = { s.pfl with owner := .free } :=
    reported.pfl (by decide)
  have egu : (raiseReport e (s.setPfl { s.pfl with owner := .free })).egu = s.egu := reported.egu (by decide)
  have moved : Within [.rpu, .sau, .pfl] s (raiseReport e (s.setPfl { s.pfl with owner := .free })) :=
    (freed.mono (by decide)).trans (reported.mono (by decide))
  generalize raiseReport e (s.setPfl { s.pfl with owner := .free }) = u at pfl egu moved
  have released := released_within u
  have flow := released_grabberRunning u
  rw [pfl, egu, show ({ s.pfl with owner := .free } : Pfl).loader = .running from running] at flow
  have request := testRequest_pfl_of_running (s := refreshFlow (releaseGrabber u))
    (by rw [released.pfl (by decide), pfl]; exact running)
  rw [released.pfl (by decide), pfl] at request
  have tested := testRequest_within (refreshFlow (releaseGrabber u))
  refine ⟨request, ?_, ?_⟩
  · rw [tested.egu (by decide), flow]
    exact congrArg _ (Bool.and_true _)
  · exact ((moved.mono (by decide)).trans (released.mono (by decide))).trans (tested.mono (by decide))

/-- The start-up load ends in FALLBACK (R165, R166, R133). -/
theorem startUpFallback_spec (s : State) :
    ((refreshFlow (releaseGrabber (enterFallback s))).pfl =
        { s.pfl with loader := .fallback, target := none, staging := none, owner := .free } ∨
      (refreshFlow (releaseGrabber (enterFallback s))).pfl = { s.pfl with
        loader := .awaitingStore, target := some s.pfl.pselStable, staging := none, owner := .free }) ∧
      (refreshFlow (releaseGrabber (enterFallback s))).sau.cond.profileFallback = true ∧
      (refreshFlow (releaseGrabber (enterFallback s))).sau.flags.profileFallback = true ∧
      (refreshFlow (releaseGrabber (enterFallback s))).egu.grabberRunning = (s.egu.grabberRunning || s.egu.hostUp) ∧
      Within [.egu, .rpu, .sau, .pfl] s (refreshFlow (releaseGrabber (enterFallback s))) := by
  have released := released_within (enterFallback s)
  have entered := enterFallback_within_loader s
  have loader := enterFallback_pfl s
  obtain ⟨cond, flag, -⟩ := enterFallback_sau s
  have started : ((enterFallback s).pfl.loader != .loadingInitial) = true := by
    rcases loader with h | h <;> rw [h] <;> rfl
  have flow := released_grabberRunning (enterFallback s)
  rw [started, Bool.and_true, entered.egu (by decide)] at flow
  rw [released.pfl (by decide), released.sau (by decide)]
  exact ⟨loader, cond, flag, flow, (entered.mono (by decide)).trans (released.mono (by decide))⟩

/-- Settles O48: the rows of Table 10-4. -/
theorem startUpLoadOutcomes : Obligations.StartUpLoadOutcomes := by
  intro s n header record ready initial target
  rw [exec_loadReadEnd header record ready, takeReadEnd_of_startUp initial target]
  have judged := judge_readStore n header record
  refine ⟨fun accepted => ⟨_, rfl, ?_⟩, fun why refused first other => ?_, fun why refused last => ⟨_, rfl, ?_⟩⟩
  · rw [readStore_of_acceptable accepted, finishStartUp_of_accepted accepted]
    generalize hr : (if s.pfl.firstReason.isSome then s.pfl.refused else none) = kept
    generalize hv : s.staged { header := header, record := record } = v
    have rest : Within [.pfl] s v := by
      rw [← hv]
      exact within_pfl (by decide) s _
    have active := activate_pfl n (decodeProfile record) kept v
    obtain ⟨loader, flow, within⟩ := startUpDone_spec (n := n) (congrArg Pfl.loader active)
    have activated := activate_within n (decodeProfile record) kept v
    rw [activate_egu, rest.egu (by decide)] at flow
    rw [active] at loader
    have pfl : v.pfl = { s.pfl with
        staging := some { header := header, record := record }, transaction := none } := by
      rw [← hv]
      rfl
    rw [pfl] at loader
    have ended : (startUpDone n (activate n (decodeProfile record) kept v)).pfl = { s.pfl with
        active := some { number := n, prof := decodeProfile record }, refused := kept, staging := none
        transaction := none, owner := .free
        target := (startUpDone n (activate n (decodeProfile record) kept v)).pfl.target
        loader := (startUpDone n (activate n (decodeProfile record) kept v)).pfl.loader } := by
      rcases loader with h | h <;> rw [h]
    refine ⟨congrArg Pfl.active ended, congrArg Pfl.refused ended, (congrArg Pfl.firstReason ended).trans rfl,
      congrArg Pfl.owner ended, congrArg Pfl.staging ended, congrArg Pfl.transaction ended, ?_, flow, ?_, ?_⟩
    · rcases loader with h | h <;> rw [h]
      · exact .inl rfl
      · exact .inr rfl
    · rw [within.wpu (by decide), activated.wpu (by decide), rest.wpu (by decide)]
    · rw [within.pins (by decide), activated.pins (by decide), rest.pins (by decide)]
  · rw [finishStartUp_of_first (judged.trans refused) first, if_neg other]
    rfl
  · have outcome : ∃ v : State, finishStartUp n (s.staged (readStore n header record)) =
          refreshFlow (releaseGrabber (enterFallback v)) ∧ Within [.pfl] s v ∧ v.pfl.active = s.pfl.active ∧
        v.pfl.refused = (if s.pfl.firstReason.isSome then s.pfl.refused else some n) ∧ v.pfl.transaction = none := by
      cases first : s.pfl.firstReason with
      | none =>
        have zero : n = 0 := last.resolve_left (by rw [first]; exact Bool.false_ne_true)
        rw [finishStartUp_of_first (judged.trans refused) first, if_pos zero]
        exact ⟨_, rfl, within_pfl (by decide) s _, rfl, rfl, rfl⟩
      | some reason =>
        rw [finishStartUp_of_second (judged.trans refused) (by rw [first]; rfl)]
        exact ⟨_, rfl, within_pfl (by decide) s _, rfl, rfl, rfl⟩
    obtain ⟨v, reached, rest, active, held, transaction⟩ := outcome
    rw [reached]
    obtain ⟨loader, cond, flag, flow, moved⟩ := startUpFallback_spec v
    rw [rest.egu (by decide)] at flow
    have within : Within [.egu, .rpu, .sau, .pfl] s (refreshFlow (releaseGrabber (enterFallback v))) :=
      (rest.mono (by decide)).trans moved
    refine ⟨?_, ?_, ?_, ?_, ?_, cond, flag, ?_, flow, within.wpu (by decide), within.mkt (by decide),
      within.tgn (by decide), within.lnb (by decide), within.frt (by decide)⟩
    · rcases loader with h | h <;> rw [h] <;> exact active
    · rcases loader with h | h <;> rw [h]
    · rcases loader with h | h <;> rw [h] <;> exact held
    · rcases loader with h | h <;> rw [h]
    · rcases loader with h | h <;> rw [h] <;> exact transaction
    · rcases loader with h | h <;> rw [h]
      · exact .inl rfl
      · exact .inr rfl

end Sys2Proof.Machine
end
